-- ==== Sys2Proof/Word.lean ====
section
/-! DEFINITION. The widths of SSGEN's registers and ports (spec/00_scope.md R5, R6; spec/30_encoding.md R43). -/

namespace Sys2Proof

/-- A 32-bit value: LFSR, START, PSEED, LFSR_MASK, `cmd_data` (R5 `LFSR_W`). Bit 0 is the least significant (R6). -/
abbrev Word := BitVec 32

/-- A 16-bit elapsed-time count (R5 `ET_W`). -/
abbrev TickCount := BitVec 16

/-- One bit per button, bit i for button i + 1 (R20): line levels, counter planes or edges (R5 `NBTN`). -/
abbrev Buttons := BitVec 4

/-- The code shared by `digit` and `press_idx` (R56; R5 `DIGIT_W`). -/
abbrev Digit := BitVec 2

/-- A command opcode (R5 `OP_W`). -/
abbrev Opcode := BitVec 4

/-- The inputs of one cycle packed into one word, `IW[43:0]` (R43). -/
abbrev InputWord := BitVec 44

end Sys2Proof
end

