-- ==== Sys2Proof/Config.lean ====
section
/-! DEFINITION. The parameters of the block (spec/00_scope.md R5) and the model's free values.
The OPEN parameters and the free inputs are constants without a body: no proof can see what they are. -/

namespace Sys2Proof.Config

/-- `LFSR_MASK`, the feedback mask: OPEN, any 32-bit value (R5, U1). DESIGN CHOICE, log 3 (safe). -/
opaque lfsrMask : Word

/-- The free number behind `INIT_SEED`: one of the 2^32 - 1 numbers below 2^32 - 1 (log 4, safe). -/
opaque initSeedIndex : Fin 4294967295

/-- `INIT_SEED`, the value of LFSR and START after reset: OPEN, 32 bits, not zero (R5, U2).
Every non-zero word is the value for exactly one `initSeedIndex`. -/
def initSeed : Word := BitVec.ofNat 32 (initSeedIndex.val + 1)

/-- `DEBOUNCE_N`, how many consecutive qualifying samples commit a change: 2 in this hardware (R5, C4; log 5). -/
def debounceN : Nat := 2

/-- `PRESSED_LEVEL`, the line level of a pressed button: 0 in this hardware (R5; log 6). -/
def pressedLevel : Bool := false

/-- The level vector of four released buttons (R26: `0b1111` with `PRESSED_LEVEL` = 0). -/
def allReleased : Buttons := if pressedLevel then 0b0000#4 else 0b1111#4

/-- The input word of a cycle for which State lists none: a free value for each cycle (R8, R40, U15, U21).
DESIGN CHOICE, log 1 (safe). -/
opaque freeInput : Nat → InputWord

end Sys2Proof.Config
end

