-- ==== Sys2Proof/Machine/State.lean ====
section
/-! DEFINITION. The state of the block (spec/10_state.md R10), its value right after reset (R26), and the reasons a
step can stop. -/

namespace Sys2Proof.Machine

/-- The ten registers of R10, and below them the model's own two fields, which hold what the outside world drives on
the input ports (log 1). -/
structure State where
  /-- LFSR, the working state of the generator (R11). -/
  lfsr : Word
  /-- START, the cached start state (R12). -/
  start : Word
  /-- PSEED, the value of the latest seed request, hidden (R13). -/
  pseed : Word
  /-- SEEDP, the SeedPending flag (R14). -/
  seedp : Bool
  /-- ET, the elapsed-time counter (R15). -/
  et : TickCount
  /-- STABLE, the last accepted stable state, as line levels (R16, R20). -/
  stable : Buttons
  /-- CNT0, the low bits of the four sample counts, hidden (R17). -/
  cnt0 : Buttons
  /-- CNT1, the high bits of the four sample counts, hidden (R17). -/
  cnt1 : Buttons
  /-- CUR, the stable state at the latest poll (R18). -/
  cur : Buttons
  /-- PREV, the stable state at the poll before it (R19). -/
  prev : Buttons
  /-- The model's own: the input words of this and the coming cycles, this cycle's first (R43; log 1). -/
  inputs : List InputWord
  /-- The model's own: how many edges have passed, the index of a free input word (log 1). -/
  cycle : Nat
deriving DecidableEq, Repr

/-- The reasons for which a step ends in a fault: none. The list of exception causes is empty (R120), so no step can
answer a fault and the type has no constructor (log 9). -/
inductive Fault
deriving DecidableEq, Repr

/-- The reasons for which a step is refused. -/
inductive Refusal where
  /-- An instruction without a meaning in this model. Raised by an arm of exec only; no arm raises it, since every
  instruction has its meaning. Safe. -/
  | notModelled (mnemonic : String)
deriving DecidableEq, Repr

/-- The state right after reset: the table of R26, with no input word listed and no cycle counted (log 1). -/
def State.reset : State where
  lfsr := Config.initSeed
  start := Config.initSeed
  pseed := 0#32
  seedp := false
  et := 0#16
  stable := Config.allReleased
  cnt0 := 0#4
  cnt1 := 0#4
  cur := Config.allReleased
  prev := Config.allReleased
  inputs := []
  cycle := 0

end Sys2Proof.Machine
end

