-- ==== Sys2Proof/Machine/Operands.lean ====
section
/-! DEFINITION. The operand forms (spec/30_encoding.md R47, R51) and the per-button views of the 4-bit vectors
(spec/10_state.md R17, R20; spec/42_debounce.md R91; spec/43_snapshot_edge.md R102). -/

namespace Sys2Proof.Machine

/-- The operand of RSD and SRQ: `cmd_data[31:0]` used whole, with no extension, scaling or shift (R47). -/
def seedOperand (cmdData : Word) : Word := cmdData

/-- The operand of TICKS: the raw line levels, bit i for button i + 1 (R20, R90). -/
def sampleOperand (btnRaw : Buttons) : Buttons := btnRaw

/-- The 4-bit vector whose bit for each button index is given (R20). -/
def lanes (f : Nat → Bool) : Buttons :=
  BitVec.ofBool (f 3) ++ BitVec.ofBool (f 2) ++ BitVec.ofBool (f 1) ++ BitVec.ofBool (f 0)

/-- The change mask `ch = btn_raw ^ STABLE`: a 1 marks a qualifying sample (R91). -/
def changeMask (btnRaw stable : Buttons) : Buttons := btnRaw ^^^ stable

/-- The sample count of one button, `n_i = 2*CNT1[i] + CNT0[i]` (R17, R92). -/
def laneCount (cnt0 cnt1 : Buttons) (i : Nat) : Nat := 2 * (cnt1.getLsbD i).toNat + (cnt0.getLsbD i).toNat

/-- The logical view of a level vector: 1 where the level is `PRESSED_LEVEL` (R102). -/
def pressed (levels : Buttons) : Buttons := if Config.pressedLevel then levels else ~~~levels

end Sys2Proof.Machine
end

