-- ==== Sys2Proof/Machine/Ops.lean ====
section
/-! DEFINITION. The named operations on the registers and on the input port. The block has no memory
(spec/20_memory.md R30) and takes no exception (spec/60_exceptions.md R120, R126), so there is no operation for either. -/

namespace Sys2Proof.Machine

/-! ## Register writes: whole registers, one edge (R33) -/

def State.writeLfsr (s : State) (v : Word) : State := { s with lfsr := v }

def State.writeStart (s : State) (v : Word) : State := { s with start := v }

def State.writePseed (s : State) (v : Word) : State := { s with pseed := v }

def State.writeSeedp (s : State) (v : Bool) : State := { s with seedp := v }

def State.writeEt (s : State) (v : TickCount) : State := { s with et := v }

/-- STABLE, CNT0 and CNT1 are written together, by TICKS (R90). -/
def State.writeFilter (s : State) (stable cnt0 cnt1 : Buttons) : State :=
  { s with stable := stable, cnt0 := cnt0, cnt1 := cnt1 }

/-- CUR and PREV always change together (R33, R100). -/
def State.writeSnapshots (s : State) (cur prev : Buttons) : State := { s with cur := cur, prev := prev }

/-- Every register takes its reset value (R26, R140); what the outside world drives is not a register. -/
def State.resetRegisters (s : State) : State := { State.reset with inputs := s.inputs, cycle := s.cycle }

/-! ## The generator's transition -/

/-- One advance of the generator under a feedback mask: shift right by one with a zero entering at the top, then XOR
with the whole mask if the bit shifted out was 1 (R61, C1). -/
def advance (mask lfsr : Word) : Word := if lfsr.getLsbD 0 then lfsr >>> 1 ^^^ mask else lfsr >>> 1

/-! ## The elapsed-time counter -/

/-- One more tick, modulo 2^16 (R80). -/
def tickCount (et : TickCount) : TickCount := et + 1#16

/-! ## The debounce filter, for any `DEBOUNCE_N` (R92, R93) -/

/-- The sample completes the run of qualifying samples and commits (R93). -/
def laneCommits (n : Nat) (ch : Bool) (count : Nat) : Bool := ch && decide (n ≤ count + 1)

/-- The sample count after the tick (R92). -/
def laneNextCount (n : Nat) (ch : Bool) (count : Nat) : Nat :=
  if ch = false then 0 else if n ≤ count + 1 then 0 else count + 1

/-- STABLE after a sampling tick (R93). -/
def filterStable (n : Nat) (btnRaw stable cnt0 cnt1 : Buttons) : Buttons :=
  lanes fun i =>
    if laneCommits n ((changeMask btnRaw stable).getLsbD i) (laneCount cnt0 cnt1 i) then !stable.getLsbD i
    else stable.getLsbD i

/-- CNT0 after a sampling tick: the low bit of each count (R92). -/
def filterCnt0 (n : Nat) (btnRaw stable cnt0 cnt1 : Buttons) : Buttons :=
  lanes fun i => (laneNextCount n ((changeMask btnRaw stable).getLsbD i) (laneCount cnt0 cnt1 i)).testBit 0

/-- CNT1 after a sampling tick: the high bit of each count (R92). -/
def filterCnt1 (n : Nat) (btnRaw stable cnt0 cnt1 : Buttons) : Buttons :=
  lanes fun i => (laneNextCount n ((changeMask btnRaw stable).getLsbD i) (laneCount cnt0 cnt1 i)).testBit 1

/-- One debounce step on the three registers of the filter. -/
def State.sample (s : State) (n : Nat) (btnRaw : Buttons) : State :=
  s.writeFilter (filterStable n btnRaw s.stable s.cnt0 s.cnt1) (filterCnt0 n btnRaw s.stable s.cnt0 s.cnt1)
    (filterCnt1 n btnRaw s.stable s.cnt0 s.cnt1)

/-! ## The input port -/

/-- The input word of this cycle: the first one listed, a free value where none is (R8, R43; log 1). -/
def State.inputWord (s : State) : InputWord :=
  match s.inputs with
  | [] => Config.freeInput s.cycle
  | w :: _ => w

/-- The ports move on to the next cycle. -/
def State.nextCycle (s : State) : State := { s with inputs := s.inputs.tail, cycle := s.cycle + 1 }

/-- The outside world drives the given word in this cycle; the coming cycles keep theirs (log 2). -/
def State.driveInput (s : State) (w : InputWord) : State := { s with inputs := w :: s.inputs.tail }

end Sys2Proof.Machine
end

