-- ==== Sys2Proof/Machine/Debounce.lean ====
section
/-! DEFINITION. The debounce filter: TICKS (spec/42_debounce.md R90 to R93), and its bitwise forms (R94, R95). -/

namespace Sys2Proof.Machine

/-- TICKS: one debounce step on the raw levels, with this hardware's `DEBOUNCE_N` (R90 to R93). -/
def execTicks (btnRaw : Buttons) (s : State) : Host.Outcome State Fault Refusal :=
  .next (s.sample Config.debounceN (sampleOperand btnRaw))

/-- The step in bitwise form for `DEBOUNCE_N` = 2 (R94). -/
def State.sampleBitwise2 (s : State) (btnRaw : Buttons) : State :=
  let ch := btnRaw ^^^ s.stable
  let run := s.cnt0 ||| s.cnt1
  let commit := ch &&& run
  s.writeFilter (s.stable ^^^ commit) (ch &&& ~~~run) 0b0000#4

/-- The step in bitwise form for `DEBOUNCE_N` = 3, which this hardware does not use (R95). -/
def State.sampleBitwise3 (s : State) (btnRaw : Buttons) : State :=
  let ch := btnRaw ^^^ s.stable
  let commit := ch &&& s.cnt1
  s.writeFilter (s.stable ^^^ commit) (ch &&& ~~~s.cnt1 &&& ~~~s.cnt0) (ch &&& ~~~s.cnt1 &&& s.cnt0)

end Sys2Proof.Machine
end

