-- ==== Sys2Proof/Machine/Elapsed.lean ====
section
/-! DEFINITION. The elapsed-time counter: TICK1 and ETC (spec/41_elapsed_time.md R80, R81). -/

namespace Sys2Proof.Machine

/-- TICK1: `ET <- (ET + 1) mod 2^16` (R80). -/
def execTick1 (s : State) : Host.Outcome State Fault Refusal := .next (s.writeEt (tickCount s.et))

/-- ETC: `ET <- 0` (R81). -/
def execEtc (s : State) : Host.Outcome State Fault Refusal := .next (s.writeEt 0#16)

end Sys2Proof.Machine
end

