-- ==== Sys2Proof/Syntax.lean ====
section
/-! DEFINITION. The twelve operations of spec/opcode_table.json, the input ports of one cycle
(spec/30_encoding.md R40), and the trace notation (R53, R54). -/

namespace Sys2Proof

/-- One constructor per row of spec/opcode_table.json. The commands are those of R46; RESET, TICK1 and TICKS are
the events of R50 and R51. An operand has the width of its port, so every value of it is legal (R47). -/
inductive Instr where
  /-- NOP (R60). -/
  | nop
  /-- ADV, advance the generator (R61). -/
  | adv
  /-- RTS, return the generator to its start state (R62). -/
  | rts
  /-- RSD, overwrite the start state with `cmd_data` (R63). -/
  | rsd (newStart : Word)
  /-- SRQ, leave a seed to be applied later (R64). -/
  | srq (seed : Word)
  /-- SAP, apply a pending seed (R65). -/
  | sap
  /-- CAP, capture the working state as the start state (R66). -/
  | cap
  /-- ETC, clear the elapsed time (R81). -/
  | etc
  /-- POLL, observe the stable button state (R100). -/
  | poll
  /-- RESET, the event of a cycle with `rst` = 1 (R140). -/
  | reset
  /-- TICK1, one elapsed-time tick (R80). -/
  | tick1
  /-- TICKS, one sampling tick on the raw line levels `btn_raw` (R90). -/
  | ticks (btnRaw : Buttons)
deriving DecidableEq, Repr

/-- The decode groups of an input word (R44), with reset apart (R50). -/
inductive EventGroup where
  | reset
  | elapsed
  | command
  | sampling
deriving DecidableEq, Repr

/-- The group an operation belongs to (R44, R50). -/
def Instr.group : Instr → EventGroup
  | .nop => .command
  | .adv => .command
  | .rts => .command
  | .rsd _ => .command
  | .srq _ => .command
  | .sap => .command
  | .cap => .command
  | .etc => .command
  | .poll => .command
  | .reset => .reset
  | .tick1 => .elapsed
  | .ticks _ => .sampling

/-- The mnemonic of the operation's row in spec/opcode_table.json. -/
def Instr.mnemonic : Instr → String
  | .nop => "NOP"
  | .adv => "ADV"
  | .rts => "RTS"
  | .rsd _ => "RSD"
  | .srq _ => "SRQ"
  | .sap => "SAP"
  | .cap => "CAP"
  | .etc => "ETC"
  | .poll => "POLL"
  | .reset => "RESET"
  | .tick1 => "TICK1"
  | .ticks _ => "TICKS"

/-- The values on the input ports in one cycle, `clk` apart (R40). -/
structure Ports where
  rst : Bool
  tick1ms : Bool
  tickSample : Bool
  btnRaw : Buttons
  cmdValid : Bool
  cmdOp : Opcode
  cmdData : Word
deriving DecidableEq, Repr

/-- The command part of a trace line (R53): `-`, a command, or `ILL <op>`. -/
inductive TraceCommand where
  | idle
  | command (i : Instr)
  | ill (op : Opcode)
deriving DecidableEq, Repr

/-- One line of a trace, `[RST] [T1] [TS=<raw>] <command>` (R53). -/
structure TraceLine where
  rst : Bool
  t1 : Bool
  ts : Option Buttons
  command : TraceCommand
deriving DecidableEq, Repr

/-- The pseudo-operations of R54. -/
inductive PseudoOp where
  | roundBegin
  | replayBegin
  | stepBegin
  | failReseed
  | seed (value : Word)
  | wait (n : Nat)
  | ticks (n : Nat)
deriving DecidableEq, Repr

end Sys2Proof
end

