-- ==== Sys2Proof/WellFormed.lean ====
section
/-! DEFINITION. Which operations can stand together in one cycle (spec/30_encoding.md R44, R45, R50), and which
trace lines the notation of R53 has. An operation alone is always well-formed: its operands are as wide as their
ports (R47). -/

namespace Sys2Proof

/-- The place of a group in the order of one cycle: TICK1, then the command, then TICKS (R37). -/
def EventGroup.rank : EventGroup → Nat
  | .reset => 0
  | .elapsed => 1
  | .command => 2
  | .sampling => 3

/-- The operations that one input word can carry, in the order they act: RESET and nothing else (R50), or at most
one event of each group, TICK1 first, TICKS last (R37, R44, R45). -/
def wellFormedCycle (is : List Instr) : Bool :=
  if is.any (fun i => i.group == .reset) then is.length == 1
  else decide (is.Pairwise (fun i j => i.group.rank < j.group.rank))

/-- An operation is well-formed when it can stand in a cycle of its own. -/
def Instr.wf (i : Instr) : Bool := wellFormedCycle [i]

/-- The reserved opcodes: `0x7` and `0xA` to `0xF` (R49). -/
def reservedOpcode (op : Opcode) : Bool :=
  op == 0x7#4 || op == 0xA#4 || op == 0xB#4 || op == 0xC#4 || op == 0xD#4 || op == 0xE#4 || op == 0xF#4

/-- The command part of a trace line is `-`, a command of R46 (never an event), or `ILL` with a reserved opcode (R53). -/
def TraceCommand.wf : TraceCommand → Bool
  | .idle => true
  | .command i => i.group == .command
  | .ill op => reservedOpcode op

/-- A trace line is well-formed when its command part is (R53). -/
def TraceLine.wf (l : TraceLine) : Bool := l.command.wf

end Sys2Proof
end

