-- ==== Sys2Proof/Decode.lean ====
section
/-! DEFINITION. The input word and its decoding (spec/30_encoding.md R43 to R52), the encoder, the opcode table as
data, and the encoding of trace lines and pseudo-operations (R53, R54). -/

namespace Sys2Proof

/-! ## The packing of R43 -/

/-- The ports that an input word stands for: the bit fields of R43. -/
def unpack (w : InputWord) : Ports where
  rst := w.getLsbD 43
  tick1ms := w.getLsbD 42
  tickSample := w.getLsbD 41
  btnRaw := w.extractLsb' 37 4
  cmdValid := w.getLsbD 36
  cmdOp := w.extractLsb' 32 4
  cmdData := w.extractLsb' 0 32

/-- The input word of the values on the ports: the fields of R43, `rst` at the top. -/
def pack (p : Ports) : InputWord :=
  BitVec.ofBool p.rst ++ BitVec.ofBool p.tick1ms ++ BitVec.ofBool p.tickSample ++ p.btnRaw ++
    BitVec.ofBool p.cmdValid ++ p.cmdOp ++ p.cmdData

/-! ## Decoding -/

/-- The opcode map of R46. A reserved opcode selects no operation (R49). -/
def commandOf (op : Opcode) (data : Word) : Option Instr :=
  match op.toNat with
  | 0x0 => some .nop
  | 0x1 => some .adv
  | 0x2 => some .rts
  | 0x3 => some (.rsd data)
  | 0x4 => some (.srq data)
  | 0x5 => some .sap
  | 0x6 => some .cap
  | 0x8 => some .etc
  | 0x9 => some .poll
  | _ => none

/-- The elapsed-time group (R44, R51). -/
def elapsedEvents (p : Ports) : List Instr := if p.tick1ms then [.tick1] else []

/-- The command group (R45, R46): nothing without `cmd_valid` (R48), nothing for a reserved opcode (R49). -/
def commandEvents (p : Ports) : List Instr := if p.cmdValid then (commandOf p.cmdOp p.cmdData).toList else []

/-- The sampling group (R44, R51); without its strobe `btn_raw` is ignored. -/
def samplingEvents (p : Ports) : List Instr := if p.tickSample then [.ticks p.btnRaw] else []

/-- The operations of one cycle, in the order they act (R37): RESET alone (R50), or the three groups (R44). -/
def decodePorts (p : Ports) : List Instr :=
  if p.rst then [.reset] else elapsedEvents p ++ commandEvents p ++ samplingEvents p

/-- The operations that an input word carries. -/
def decodeCycle (w : InputWord) : List Instr := decodePorts (unpack w)

/-- Why a word is no single operation. -/
inductive DecodeError where
  /-- A bit above bit 43 is set: no input word (R43). -/
  | notAnInputWord
  /-- A command with a reserved opcode is presented (R49). -/
  | reservedCommand (op : Opcode)
  /-- More than one group fires (R44): the word is a cycle of several operations, not one. -/
  | severalEvents
deriving DecidableEq, Repr

/-- The one operation of an input word. A word in which no group fires has the effect of NOP (R48), and the table
lists it as NOP's alias; a word that is no single operation is rejected by name (log 10). -/
def decodeWord (w : InputWord) : Except DecodeError Instr :=
  let p := unpack w
  if p.rst then .ok .reset
  else if p.cmdValid && reservedOpcode p.cmdOp then .error (.reservedCommand p.cmdOp)
  else
    match decodePorts p with
    | [] => .ok .nop
    | [i] => .ok i
    | _ => .error .severalEvents

/-- Decoding of any number, total: a number of more than 44 bits is no input word (R43, R52). -/
def decode (w : Nat) : Except DecodeError Instr :=
  if w < 2 ^ 44 then decodeWord (BitVec.ofNat 44 w) else .error .notAnInputWord

/-- The instruction read from a word numbered as spec/opcode_table.json numbers it: bit k of the number is `IW[k]`
(log 11). -/
def decodeTableWord (nbits w : Nat) : Option Instr := (decode (w % 2 ^ nbits)).toOption

/-! ## Encoding -/

/-- The ports of a cycle in which nothing is asked, `-` (R53). -/
def idlePorts : Ports where
  rst := false
  tick1ms := false
  tickSample := false
  btnRaw := 0#4
  cmdValid := false
  cmdOp := 0#4
  cmdData := 0#32

/-- Drives the command port (format C, R45). -/
def driveCommand (op : Opcode) (data : Word) (p : Ports) : Ports :=
  { p with cmdValid := true, cmdOp := op, cmdData := data }

/-- Drives the ports that ask for an operation; an operand-less command has `cmd_data` = 0 (R46, R50, R51, R53). -/
def drive : Instr → Ports → Ports
  | .nop, p => driveCommand 0x0#4 0#32 p
  | .adv, p => driveCommand 0x1#4 0#32 p
  | .rts, p => driveCommand 0x2#4 0#32 p
  | .rsd newStart, p => driveCommand 0x3#4 newStart p
  | .srq seed, p => driveCommand 0x4#4 seed p
  | .sap, p => driveCommand 0x5#4 0#32 p
  | .cap, p => driveCommand 0x6#4 0#32 p
  | .etc, p => driveCommand 0x8#4 0#32 p
  | .poll, p => driveCommand 0x9#4 0#32 p
  | .reset, p => { p with rst := true }
  | .tick1, p => { p with tick1ms := true }
  | .ticks btnRaw, p => { p with tickSample := true, btnRaw := btnRaw }

/-- The canonical input word that carries the given operations in one cycle (R53). -/
def encodeCycle (is : List Instr) : InputWord := pack (is.foldr drive idlePorts)

/-- The canonical input word of one operation (R53). -/
def encode (i : Instr) : InputWord := encodeCycle [i]

/-! ## The opcode table as data -/

/-- A row of spec/opcode_table.json: a word carries the row's operation when it has the `bits` under the `mask`. -/
structure Row where
  mnemonic : String
  bits : InputWord
  mask : InputWord
deriving DecidableEq, Repr

/-- The word has the row's match value under the row's mask. -/
def Row.fits (r : Row) (w : InputWord) : Bool := w &&& r.mask == r.bits

/-- The twelve rows of spec/opcode_table.json. -/
def opcodeTable : List Row :=
  [⟨"NOP", 0x01000000000#44, 0x81F00000000#44⟩,
   ⟨"ADV", 0x01100000000#44, 0x81F00000000#44⟩,
   ⟨"RTS", 0x01200000000#44, 0x81F00000000#44⟩,
   ⟨"RSD", 0x01300000000#44, 0x81F00000000#44⟩,
   ⟨"SRQ", 0x01400000000#44, 0x81F00000000#44⟩,
   ⟨"SAP", 0x01500000000#44, 0x81F00000000#44⟩,
   ⟨"CAP", 0x01600000000#44, 0x81F00000000#44⟩,
   ⟨"ETC", 0x01800000000#44, 0x81F00000000#44⟩,
   ⟨"POLL", 0x01900000000#44, 0x81F00000000#44⟩,
   ⟨"RESET", 0x80000000000#44, 0x80000000000#44⟩,
   ⟨"TICK1", 0x40000000000#44, 0xC0000000000#44⟩,
   ⟨"TICKS", 0x20000000000#44, 0xA0000000000#44⟩]

/-! ## Trace lines and pseudo-operations -/

/-- The command part of a trace line on the ports; `-` leaves them idle (R53). -/
def TraceCommand.drive : TraceCommand → Ports → Ports
  | .idle, p => p
  | .command i, p => Sys2Proof.drive i p
  | .ill op, p => driveCommand op 0#32 p

/-- The canonical ports of a trace line; with `TS` absent `btn_raw` is 0 (R53). -/
def TraceLine.ports (l : TraceLine) : Ports :=
  l.command.drive
    { idlePorts with
      rst := l.rst
      tick1ms := l.t1
      tickSample := l.ts.isSome
      btnRaw := l.ts.getD 0#4 }

/-- The canonical input word of a trace line (R53). -/
def TraceLine.word (l : TraceLine) : InputWord := pack l.ports

/-- A trace line that gives one command and no event. -/
def commandLine (i : Instr) : TraceLine := ⟨false, false, none, .command i⟩

/-- A trace line that gives no command, with or without `T1`. -/
def idleLine (t1 : Bool) : TraceLine := ⟨false, t1, none, .idle⟩

/-- The expansion of a pseudo-operation into trace lines (R54). -/
def PseudoOp.expand : PseudoOp → List TraceLine
  | .roundBegin => [commandLine .sap, commandLine .rts]
  | .replayBegin => [commandLine .rts]
  | .stepBegin => [commandLine .adv, commandLine .etc]
  | .failReseed => [commandLine .cap]
  | .seed value => [commandLine (.srq value)]
  | .wait n => List.replicate n (idleLine false)
  | .ticks n => List.replicate n (idleLine true)

end Sys2Proof
end

