-- ==== Sys2Proof/Machine/Flags.lean ====
section
/-! DEFINITION. SEEDP, the only flag (spec/10_state.md R14), and `cmd_illegal`, the one reportable condition
(spec/60_exceptions.md R121). There are no condition codes (R14). -/

namespace Sys2Proof.Machine

/-- A seed request sets SEEDP (R64). -/
def State.raiseSeedp (s : State) : State := s.writeSeedp true

/-- Applying the pending seed clears SEEDP (R65). -/
def State.clearSeedp (s : State) : State := s.writeSeedp false

/-- `cmd_illegal`, a function of the inputs of the cycle and of no register (R42, R121). -/
def cmdIllegal (p : Ports) : Bool := !p.rst && p.cmdValid && reservedOpcode p.cmdOp

end Sys2Proof.Machine
end

