-- ==== Sys2Proof/Machine/Generator.lean ====
section
/-! DEFINITION. The commands of the sequence generator (spec/40_lfsr.md R60 to R66). -/

namespace Sys2Proof.Machine

/-- NOP: every register keeps its value (R60). -/
def execNop (s : State) : Host.Outcome State Fault Refusal := .next s

/-- ADV: `LFSR <- (LFSR >> 1) ^ (LFSR[0] ? LFSR_MASK : 0)` (R61). -/
def execAdv (s : State) : Host.Outcome State Fault Refusal := .next (s.writeLfsr (advance Config.lfsrMask s.lfsr))

/-- RTS: `LFSR <- START` (R62). -/
def execRts (s : State) : Host.Outcome State Fault Refusal := .next (s.writeLfsr s.start)

/-- RSD: `START <- cmd_data` (R63). -/
def execRsd (newStart : Word) (s : State) : Host.Outcome State Fault Refusal :=
  .next (s.writeStart (seedOperand newStart))

/-- SRQ: `PSEED <- cmd_data; SEEDP <- 1` (R64). -/
def execSrq (seed : Word) (s : State) : Host.Outcome State Fault Refusal :=
  .next (s.writePseed (seedOperand seed)).raiseSeedp

/-- SAP: if SEEDP then `START <- PSEED; SEEDP <- 0` (R65). -/
def execSap (s : State) : Host.Outcome State Fault Refusal :=
  if s.seedp then .next (s.writeStart s.pseed).clearSeedp else .next s

/-- CAP: `START <- LFSR` (R66). -/
def execCap (s : State) : Host.Outcome State Fault Refusal := .next (s.writeStart s.lfsr)

end Sys2Proof.Machine
end

