-- ==== Sys2Proof/Machine/ResetEvent.lean ====
section
/-! DEFINITION. The event RESET (spec/70_reset_and_hazards.md R140). -/

namespace Sys2Proof.Machine

/-- RESET: every register takes its reset value, and nothing else happens (R26, R140). -/
def execReset (s : State) : Host.Outcome State Fault Refusal := .next s.resetRegisters

end Sys2Proof.Machine
end

