-- ==== Sys2Proof/Machine/Snapshot.lean ====
section
/-! DEFINITION. The snapshot pair: POLL (spec/43_snapshot_edge.md R100). -/

namespace Sys2Proof.Machine

/-- POLL: `PREV <- CUR; CUR <- STABLE`, both from the values before the edge (R100). -/
def execPoll (s : State) : Host.Outcome State Fault Refusal := .next (s.writeSnapshots s.stable s.cur)

end Sys2Proof.Machine
end

