-- ==== Sys2Proof/Machine/Dispatch.lean ====
section
/-! DEFINITION. The meaning of every operation, one arm per constructor. -/

namespace Sys2Proof.Machine

def exec (i : Instr) (s : State) : Host.Outcome State Fault Refusal :=
  match i with
  | .nop => Sys2Proof.Machine.execNop s
  | .adv => Sys2Proof.Machine.execAdv s
  | .rts => Sys2Proof.Machine.execRts s
  | .rsd newStart => Sys2Proof.Machine.execRsd newStart s
  | .srq seed => Sys2Proof.Machine.execSrq seed s
  | .sap => Sys2Proof.Machine.execSap s
  | .cap => Sys2Proof.Machine.execCap s
  | .etc => Sys2Proof.Machine.execEtc s
  | .poll => Sys2Proof.Machine.execPoll s
  | .reset => Sys2Proof.Machine.execReset s
  | .tick1 => Sys2Proof.Machine.execTick1 s
  | .ticks btnRaw => Sys2Proof.Machine.execTicks btnRaw s

end Sys2Proof.Machine
end

