-- ==== Sys2Proof/Machine/Cycle.lean ====
section
/-! DEFINITION. One cycle of the block: the operations its input word carries, run in the order of
spec/20_memory.md R37. -/

namespace Sys2Proof.Machine

/-- Runs operations one after another on the state; stops where one stops. -/
def runEvents : List Instr → State → Host.Outcome State Fault Refusal
  | [], s => .next s
  | i :: is, s =>
    match exec i s with
    | .next t => runEvents is t
    | .fault r => .fault r
    | .refused r => .refused r

/-- One cycle with the given input word: TICK1, then the command, then TICKS, as a multi-event cycle is defined (R37);
RESET alone (R50); nothing for an absent or a reserved command (R48, R49). -/
def runCycle (w : InputWord) (s : State) : Host.Outcome State Fault Refusal := runEvents (decodeCycle w) s

end Sys2Proof.Machine
end

