-- ==== Sys2Proof/Machine/Step.lean ====
section
/-! DEFINITION. The step: one rising edge of `clk` (spec/00_scope.md R8). -/

namespace Sys2Proof.Machine

/-- One rising edge: the input word of this cycle acts, and the ports move on to the next cycle (R8, R36). -/
def step (s : State) : Host.Outcome State Fault Refusal := runCycle s.inputWord s.nextCycle

/-- The state in which the outside world drives the word of the given number in this cycle (log 2, log 11). -/
def State.withFetchWord (s : State) (nbits w : Nat) : State := s.driveInput (BitVec.ofNat 44 (w % 2 ^ nbits))

end Sys2Proof.Machine
end

