-- ==== Sys2Proof/Machine/Outputs.lean ====
section
/-! DEFINITION. The output ports (spec/30_encoding.md R41, R42): combinational functions of the registers, and
`cmd_illegal`, of the inputs of the cycle. -/

namespace Sys2Proof.Machine

/-- The digit: `LFSR[1:0]` (R67). -/
def digitOf (lfsr : Word) : Digit := lfsr.extractLsb' 0 2

/-- Press edges: `pressed(CUR) & ~pressed(PREV)` (R103). -/
def pressEdges (cur prev : Buttons) : Buttons := pressed cur &&& ~~~pressed prev

/-- Release edges: `~pressed(CUR) & pressed(PREV)` (R104). -/
def releaseEdges (cur prev : Buttons) : Buttons := ~~~pressed cur &&& pressed prev

/-- `press_any` (R105). -/
def pressAny (press : Buttons) : Bool := press != 0b0000#4

/-- `press_idx`: the fixed-priority selection of one press edge, 0 where there is none (R105; log 13). -/
def pressIdx (press : Buttons) : Digit :=
  if press.getLsbD 0 then 0#2
  else if press.getLsbD 1 then 1#2
  else if press.getLsbD 2 then 2#2
  else if press.getLsbD 3 then 3#2
  else 0#2

/-- The output ports that show the registers (R41): every output but `cmd_illegal` (R42). -/
structure RegisterOutputs where
  digit : Digit
  lfsr : Word
  start : Word
  seedPending : Bool
  elapsed : TickCount
  stable : Buttons
  cur : Buttons
  prev : Buttons
  press : Buttons
  release : Buttons
  pressAny : Bool
  pressIdx : Digit
deriving DecidableEq, Repr

/-- The values on the register outputs in the present cycle (R41, R42). -/
def State.outputs (s : State) : RegisterOutputs where
  digit := digitOf s.lfsr
  lfsr := s.lfsr
  start := s.start
  seedPending := s.seedp
  elapsed := s.et
  stable := s.stable
  cur := s.cur
  prev := s.prev
  press := pressEdges s.cur s.prev
  release := releaseEdges s.cur s.prev
  pressAny := Sys2Proof.Machine.pressAny (pressEdges s.cur s.prev)
  pressIdx := Sys2Proof.Machine.pressIdx (pressEdges s.cur s.prev)

/-- The value on `cmd_illegal` in the present cycle (R121). -/
def State.cmdIllegal (s : State) : Bool := Sys2Proof.Machine.cmdIllegal (unpack s.inputWord)

end Sys2Proof.Machine
end

