-- ==== Sys2Proof/Safety.lean ====
section
/-! DEFINITION. The terms in which claims about runs are made: runs over listed inputs, what a run's words carry, the
legal sample counts (spec/10_state.md R25), and the register-by-register form of one edge (R7, R21, R37).
Every step of this block is a safe one: none stops (R120). -/

namespace Sys2Proof.Machine

/-! ## Runs -/

/-- A run of as many steps as there are input words, one word a cycle in order (R36). -/
def runInputs (ws : List InputWord) (s : State) : Host.Outcome State Fault Refusal :=
  Host.Core.run Sys2Proof.core ws.length { s with inputs := ws }

/-- The same ten registers, whatever the outside world drives. -/
def SameRegisters (s t : State) : Prop :=
  { s with inputs := [], cycle := 0 } = { t with inputs := [], cycle := 0 }

/-- The word carries the operation. -/
def carries (i : Instr) (w : InputWord) : Bool := (decodeCycle w).contains i

/-- The word carries an operation of the given mnemonic, with any operand. -/
def carriesNamed (mnemonic : String) (w : InputWord) : Bool := (decodeCycle w).any (fun i => i.mnemonic == mnemonic)

/-- How many words carry the operation. -/
def countCarrying (i : Instr) (ws : List InputWord) : Nat := ws.countP (carries i)

/-- The raw levels of the sampling ticks that the words carry, in order. -/
def samplesOf (ws : List InputWord) : List Buttons :=
  ws.filterMap fun w => let p := unpack w; if !p.rst && p.tickSample then some p.btnRaw else none

/-- The filter run on raw levels alone, one sampling tick after another. -/
def sampleRun (raws : List Buttons) (s : State) : State := raws.foldl (fun t raw => t.sample Config.debounceN raw) s

/-- The cycle presents a command with the given opcode (R46). -/
def CommandWord (op : Opcode) (w : InputWord) : Prop :=
  (unpack w).rst = false ∧ (unpack w).cmdValid = true ∧ (unpack w).cmdOp = op

/-! ## The legal sample counts -/

/-- Every sample count is below `DEBOUNCE_N` (R25). -/
def CountsLegal (s : State) : Prop := ∀ i < 4, laneCount s.cnt0 s.cnt1 i < Config.debounceN

/-! ## One edge, register by register

Every right-hand side reads the values before the edge (R7); a register takes a new value only from the events that
R21 lists for it. This form knows nothing of the order in which the events of a cycle are run. -/

/-- What the two tick groups do to ET, STABLE, CNT0 and CNT1, with no ETC in the cycle (R80, R90). -/
def withTicks (p : Ports) (s : State) : State :=
  { s with
    et := if p.tick1ms then s.et + 1#16 else s.et
    stable := if p.tickSample then filterStable 2 p.btnRaw s.stable s.cnt0 s.cnt1 else s.stable
    cnt0 := if p.tickSample then filterCnt0 2 p.btnRaw s.stable s.cnt0 s.cnt1 else s.cnt0
    cnt1 := if p.tickSample then filterCnt1 2 p.btnRaw s.stable s.cnt0 s.cnt1 else s.cnt1 }

/-- The registers after the edge as a function of the ports and the registers before it. -/
def edgeNext (p : Ports) (s : State) : State :=
  if p.rst then
    { s with
      lfsr := Config.initSeed
      start := Config.initSeed
      pseed := 0x00000000#32
      seedp := false
      et := 0x0000#16
      stable := 0b1111#4
      cnt0 := 0b0000#4
      cnt1 := 0b0000#4
      cur := 0b1111#4
      prev := 0b1111#4 }
  else
    let cmd := fun op : Opcode => p.cmdValid && p.cmdOp == op
    let ch := p.btnRaw ^^^ s.stable
    let run := s.cnt0 ||| s.cnt1
    { s with
      lfsr :=
        if cmd 0x1#4 then (s.lfsr >>> 1) ^^^ (if s.lfsr.getLsbD 0 then Config.lfsrMask else 0#32)
        else if cmd 0x2#4 then s.start
        else s.lfsr
      start :=
        if cmd 0x3#4 then p.cmdData
        else if cmd 0x5#4 && s.seedp then s.pseed
        else if cmd 0x6#4 then s.lfsr
        else s.start
      pseed := if cmd 0x4#4 then p.cmdData else s.pseed
      seedp := if cmd 0x4#4 then true else if cmd 0x5#4 then false else s.seedp
      et := if cmd 0x8#4 then 0#16 else if p.tick1ms then s.et + 1#16 else s.et
      stable := if p.tickSample then s.stable ^^^ (ch &&& run) else s.stable
      cnt0 := if p.tickSample then ch &&& ~~~run else s.cnt0
      cnt1 := if p.tickSample then 0b0000#4 else s.cnt1
      cur := if cmd 0x9#4 then s.stable else s.cur
      prev := if cmd 0x9#4 then s.cur else s.prev }

end Sys2Proof.Machine
end

