-- ==== Sys2Proof/Certificates/Slice0/Obligations.lean ====
section
/-! DEFINITION. The statements for the provers. Each docstring names the rule of spec/ that its statement formalises. -/

open Sys2Proof Sys2Proof.Machine

/-! ## Encoding -/

/-- Words written out from the bit fields of R43 and the numbers of R46, R50 and R51 decode to the operations they
stand for, at least one of every family. Three clauses are the model's choice (log 10): that a word in which no group
fires is read as NOP (R48 gives it NOP's effect only), that a reserved command is rejected by name, and that a word of
several operations is. -/
def Obligations.WrittenOutWordsDecode : Prop :=
  decode 0x01000000000 = .ok .nop ∧
  decode 0x00000000000 = .ok .nop ∧
  decode 0x01100000000 = .ok .adv ∧
  decode 0x013DEADBEEF = .ok (.rsd 0xDEADBEEF#32) ∧
  decode 0x014CAFEF00D = .ok (.srq 0xCAFEF00D#32) ∧
  decode 0x01800000000 = .ok .etc ∧
  decode 0x01900000000 = .ok .poll ∧
  decode 0x40000000000 = .ok .tick1 ∧
  decode 0x36000000000 = .ok (.ticks 0b1011#4) ∧
  decode 0x80000000000 = .ok .reset ∧
  decode 0xFFFFFFFFFFF = .ok .reset ∧
  decode 0x01700000000 = .error (.reservedCommand 0x7#4) ∧
  decode 0x41800000000 = .error .severalEvents

/-- Every operation, with every value of its operand, is read back from its canonical word (R43, R46, R47, R50, R51).
The decoder of a single operation is the model's choice (log 10), and so is the count of a word's 44 bits as 48 in
decodeTableWord (log 11). -/
def Obligations.InstructionRoundTrip : Prop :=
  ∀ i : Instr, i.wf = true → decode (encode i).toNat = .ok i ∧ decodeTableWord 48 (encode i).toNat = some i

/-- Every well-formed cycle of operations, with every value of every operand, is read back from its canonical word,
all of its operations and no other (R43, R44, R46, R47, R50, R51). -/
def Obligations.CycleRoundTrip : Prop :=
  ∀ is : List Instr, wellFormedCycle is = true → decodeCycle (encodeCycle is) = is

/-- Whatever the word, the operations it carries form a well-formed cycle: RESET alone, or at most one TICK1, at most
one command and at most one TICKS (R44, R45, R50), in this order (R37, log 14; the spec marks the order as derived).
-/
def Obligations.EveryWordIsAWellFormedCycle : Prop :=
  ∀ w : InputWord, wellFormedCycle (decodeCycle w) = true

/-- The decoder, written from the fields, and the table of match and mask values agree on every word: a row fits a
word exactly when the word carries an operation of the row's mnemonic (opcode_table.json; R43, R46, R50, R51). -/
def Obligations.DecoderAgreesWithOpcodeTable : Prop :=
  ∀ w : InputWord, ∀ r ∈ opcodeTable, (r.fits w = true ↔ ∃ i ∈ decodeCycle w, i.mnemonic = r.mnemonic)

/-- RESET decode (R50): with `IW[43]` = 1 the word carries RESET and nothing else whatever its other bits,
`cmd_illegal` is 0 and every register takes its reset value; every other row of the table has `IW[43]` in its mask
with match value 0. -/
def Obligations.ResetDecodesAlone : Prop :=
  (∀ w : InputWord, w.getLsbD 43 = true → decodeCycle w = [.reset] ∧ cmdIllegal (unpack w) = false) ∧
  (∀ s : State, s.inputWord.getLsbD 43 = true → ∃ t, step s = .next t ∧ SameRegisters t State.reset) ∧
  (∀ r ∈ opcodeTable, r.mnemonic ≠ "RESET" → r.mask.getLsbD 43 = true ∧ r.bits.getLsbD 43 = false)

/-- Operand assembly (R47): RSD and SRQ take the whole of `cmd_data`, any value of it; the other commands ignore it,
and no row's mask looks at it. -/
def Obligations.OperandsAreWholeOrIgnored : Prop :=
  (∀ d : Word, commandOf 0x3#4 d = some (.rsd d) ∧ commandOf 0x4#4 d = some (.srq d)) ∧
  (∀ (d : Word) (s : State), CommandWord 0x3#4 s.inputWord →
    ∃ t, step (s.driveInput (pack { unpack s.inputWord with cmdData := d })) = .next t ∧ t.start = d) ∧
  (∀ (d : Word) (s : State), CommandWord 0x4#4 s.inputWord →
    ∃ t, step (s.driveInput (pack { unpack s.inputWord with cmdData := d })) = .next t ∧ t.pseed = d) ∧
  (∀ (op : Opcode) (d : Word) (s : State), op ∈ [0x0#4, 0x1#4, 0x2#4, 0x5#4, 0x6#4, 0x8#4, 0x9#4] →
    CommandWord op s.inputWord →
    step (s.driveInput (pack { unpack s.inputWord with cmdData := d })) = step s) ∧
  (∀ r ∈ opcodeTable, r.mask.extractLsb' 0 32 = 0#32)

/-- No command (R48): with `cmd_valid` = 0 the step is the one NOP gives, whatever `cmd_op` and `cmd_data` hold, and
`cmd_illegal` is 0; in trace syntax it is written `-` or `NOP`. -/
def Obligations.NoCommandActsAsNop : Prop :=
  (∀ s : State, (unpack s.inputWord).cmdValid = false →
    s.cmdIllegal = false ∧
    step s = step (s.driveInput (pack { unpack s.inputWord with cmdValid := true, cmdOp := 0x0#4 }))) ∧
  (idleLine false).word = 0x00000000000#44 ∧ (commandLine .nop).word = encode .nop

/-- Reserved opcodes (R49): they select no operation, no register of the command group changes, the two tick groups
act as usual, and `cmd_illegal` is 1. -/
def Obligations.ReservedOpcodeChangesNothing : Prop :=
  ∀ op : Opcode, op ∈ [0x7#4, 0xA#4, 0xB#4, 0xC#4, 0xD#4, 0xE#4, 0xF#4] →
    (∀ d : Word, commandOf op d = none) ∧
    (∀ s : State, CommandWord op s.inputWord →
      s.cmdIllegal = true ∧ step s = .next (withTicks (unpack s.inputWord) s.nextCycle))

/-- `cmd_illegal` (R121): its equation over every value of the ports; and a cycle in which it is 1 leaves the state that
the same cycle without the command leaves, so that nothing of it is saved and the next command is taken as usual. -/
def Obligations.CmdIllegalReportsReservedOpcodes : Prop :=
  (∀ p : Ports, cmdIllegal p = true ↔
    p.rst = false ∧ p.cmdValid = true ∧ p.cmdOp ∈ [0x7#4, 0xA#4, 0xB#4, 0xC#4, 0xD#4, 0xE#4, 0xF#4]) ∧
  (∀ s : State, s.cmdIllegal = true →
    step s = step (s.driveInput (pack { unpack s.inputWord with cmdValid := false })))

/-! ## The step -/

/-- A step whose input word decodes to one operation is exec of it on the state with the ports moved on; and the word
placed by withFetchWord is the one the next step runs. Both clauses rest on the model's choices: the input words that
State lists (log 1), the decoder of a single operation, which reads a word in which no group fires as NOP (log 10),
the placing of a word on the ports (log 2) and the number of that word (log 11). -/
def Obligations.StepRunsTheDecodedInstruction : Prop :=
  (∀ (s : State) (i : Instr), decodeWord s.inputWord = .ok i → step s = exec i s.nextCycle) ∧
  (∀ (s : State) (nbits w : Nat) (i : Instr), decodeTableWord nbits w = some i →
    step (s.withFetchWord nbits w) = exec i s.nextCycle)

/-- One step (R8): every state steps to a next state, its registers are a function of the registers and the input word
before it, the outputs are a function of the registers, and `cmd_illegal` of the input word. -/
def Obligations.StepIsTotalAndDeterministic : Prop :=
  (∀ s : State, ∃ t, step s = .next t) ∧
  (∀ s s' t t' : State, SameRegisters s s' → s.inputWord = s'.inputWord → step s = .next t → step s' = .next t' →
    SameRegisters t t') ∧
  (∀ s s' : State, SameRegisters s s' → s.outputs = s'.outputs) ∧
  (∀ s s' : State, s.inputWord = s'.inputWord → s.cmdIllegal = s'.cmdIllegal)

/-- Outputs (R42): `cmd_illegal` is a function of `rst`, `cmd_valid` and `cmd_op` alone, of no register; every other
output is a function of the registers alone and does not depend on what the ports carry in the present cycle. -/
def Obligations.OutputsAreMooreExceptCmdIllegal : Prop :=
  (∀ s s' : State, (unpack s.inputWord).rst = (unpack s'.inputWord).rst →
    (unpack s.inputWord).cmdValid = (unpack s'.inputWord).cmdValid →
    (unpack s.inputWord).cmdOp = (unpack s'.inputWord).cmdOp → s.cmdIllegal = s'.cmdIllegal) ∧
  (∀ s s' : State, SameRegisters s s' → s.outputs = s'.outputs) ∧
  (∀ (s : State) (w : InputWord), (s.driveInput w).outputs = s.outputs)

/-- The order inside one cycle (R37; the spec marks it as derived): running TICK1, then the command, then TICKS gives
the registers that the simultaneous form gives, in which every register is written from the values before the edge by
the events R21 lists. -/
def Obligations.StepIsTheSimultaneousEdge : Prop :=
  ∀ s : State, step s = .next (edgeNext (unpack s.inputWord) s.nextCycle)

/-- Order between cycles (R36), said of the model's own fields State.inputs and State.cycle, which are the model's
choice (log 1): a step takes exactly one input word, this cycle's, and leaves those of the coming cycles as they were;
a run over two lists of words is the run over the first and then the run over the second. -/
def Obligations.StepsTakeOneWordInOrder : Prop :=
  (∀ s t : State, step s = .next t → t.inputs = s.inputs.tail ∧ t.cycle = s.cycle + 1) ∧
  (∀ (ws vs : List InputWord) (s t u : State), runInputs ws s = .next t → runInputs vs t = .next u →
    runInputs (ws ++ vs) s = .next u)

/-- The groups of one word are independent (R44): without reset, the generator and the snapshot pair step as if no tick
were there, the filter as if TICKS were alone, and ET as if TICK1 were alone, but for ETC. -/
def Obligations.GroupsActIndependently : Prop :=
  ∀ s : State, (unpack s.inputWord).rst = false →
    ∃ t c e f,
      step s = .next t ∧
      step (s.driveInput (pack { unpack s.inputWord with tick1ms := false, tickSample := false })) = .next c ∧
      step (s.driveInput (pack { unpack s.inputWord with tickSample := false, cmdValid := false })) = .next e ∧
      step (s.driveInput (pack { unpack s.inputWord with tick1ms := false, cmdValid := false })) = .next f ∧
      t.lfsr = c.lfsr ∧ t.start = c.start ∧ t.pseed = c.pseed ∧ t.seedp = c.seedp ∧ t.cur = c.cur ∧ t.prev = c.prev ∧
      t.stable = f.stable ∧ t.cnt0 = f.cnt0 ∧ t.cnt1 = f.cnt1 ∧
      (CommandWord 0x8#4 s.inputWord ∨ t.et = e.et)

/-! ## Reset -/

/-- The reset values (R26; the values are the spec's decisions D10 and D22), and reset against everything else in its
cycle (R143): at an edge with `rst` = 1 every register takes the value of the table, whatever the other inputs and the
state are; RESET as an operation does the same. -/
def Obligations.ResetOverridesEverything : Prop :=
  Config.initSeed ≠ 0#32 ∧
  (∀ s : State, (unpack s.inputWord).rst = true →
    step s = .next
      { lfsr := Config.initSeed, start := Config.initSeed, pseed := 0x00000000#32, seedp := false, et := 0x0000#16,
        stable := 0b1111#4, cnt0 := 0b0000#4, cnt1 := 0b0000#4, cur := 0b1111#4, prev := 0b1111#4,
        inputs := s.inputs.tail, cycle := s.cycle + 1 }) ∧
  (∀ s : State, exec .reset s = .next
      { lfsr := Config.initSeed, start := Config.initSeed, pseed := 0x00000000#32, seedp := false, et := 0x0000#16,
        stable := 0b1111#4, cnt0 := 0b0000#4, cnt1 := 0b0000#4, cur := 0b1111#4, prev := 0b1111#4,
        inputs := s.inputs, cycle := s.cycle })

/-- The state after reset and the outputs it shows (the sentence of 70_reset_and_hazards.md section 1 that the spec
marks as derived from R26 and R41). -/
def Obligations.ResetStateAndOutputs : Prop :=
  SameRegisters State.reset
    { lfsr := Config.initSeed, start := Config.initSeed, pseed := 0#32, seedp := false, et := 0#16, stable := 0b1111#4,
      cnt0 := 0b0000#4, cnt1 := 0b0000#4, cur := 0b1111#4, prev := 0b1111#4, inputs := [], cycle := 0 } ∧
  Config.initSeed ≠ 0#32 ∧
  State.reset.outputs =
    { digit := Config.initSeed.extractLsb' 0 2, lfsr := Config.initSeed, start := Config.initSeed, seedPending := false,
      elapsed := 0#16, stable := 0b1111#4, cur := 0b1111#4, prev := 0b1111#4, press := 0b0000#4, release := 0b0000#4,
      pressAny := false, pressIdx := 0#2 }

/-- Reset (R140): at an edge with `rst` = 1 every register takes its reset value and `cmd_illegal` is 0; after one or
more cycles with `rst` = 1, from any state, the block goes on as it goes on from the reset state, whatever the words
that follow. -/
def Obligations.HeldResetActsAsOneReset : Prop :=
  (∀ s : State, (unpack s.inputWord).rst = true →
    s.cmdIllegal = false ∧ ∃ t, step s = .next t ∧ SameRegisters t State.reset) ∧
  (∀ (ws vs : List InputWord) (s : State), ws ≠ [] → (∀ w ∈ ws, (unpack w).rst = true) →
    ∃ t u, runInputs (ws ++ vs) s = .next t ∧ runInputs vs State.reset = .next u ∧ SameRegisters t u)

/-! ## The sequence generator -/

/-- NOP (R60): as an operation it changes nothing; in a cycle every register of the command group keeps its value, the
ticks of the cycle act, and `cmd_illegal` is 0. -/
def Obligations.NopKeepsEveryRegister : Prop :=
  (∀ s : State, exec .nop s = .next s) ∧
  (∀ s : State, (unpack s.inputWord).rst = false →
    (CommandWord 0x0#4 s.inputWord ∨ (unpack s.inputWord).cmdValid = false) →
    s.cmdIllegal = false ∧ step s = .next (withTicks (unpack s.inputWord) s.nextCycle))

/-- ADV (R61): the new LFSR, nothing else changed; the digit is the low bits of the new state; the corner cases. -/
def Obligations.AdvShiftsAndXorsTheMask : Prop :=
  (∀ s : State, exec .adv s = .next
    { s with lfsr := if s.lfsr.getLsbD 0 then (s.lfsr >>> 1) ^^^ Config.lfsrMask else s.lfsr >>> 1 }) ∧
  (∀ s : State, CommandWord 0x1#4 s.inputWord → s.cmdIllegal = false ∧ step s = .next
    { withTicks (unpack s.inputWord) s.nextCycle with
      lfsr := if s.lfsr.getLsbD 0 then (s.lfsr >>> 1) ^^^ Config.lfsrMask else s.lfsr >>> 1 }) ∧
  (∀ s t : State, exec .adv s = .next t →
    t.outputs.digit = t.lfsr.extractLsb' 0 2 ∧
    t.lfsr.getLsbD 31 = (s.lfsr.getLsbD 0 && Config.lfsrMask.getLsbD 31) ∧
    (s.lfsr = 0#32 → t.lfsr = 0#32 ∧ t.outputs.digit = 0#2) ∧
    (s.lfsr = 1#32 → t.lfsr = Config.lfsrMask) ∧
    (s.lfsr = 4#32 → t.lfsr = 2#32 ∧ t.outputs.digit = 2#2))

/-- The digit that ADV emits in terms of the old state: `LFSR[2:1]`, XORed with the two low bits of the mask where the
bit shifted out is 1 (the sentence of 40_lfsr.md section 1 that the spec marks as derived from R61 and R67). -/
def Obligations.DigitOfAnAdvanceFromTheOldState : Prop :=
  ∀ s t : State, exec .adv s = .next t →
    t.outputs.digit = s.lfsr.extractLsb' 1 2 ^^^ (if s.lfsr.getLsbD 0 then Config.lfsrMask.extractLsb' 0 2 else 0#2)

/-- The digit output (R67): it is `LFSR[1:0]` in every state, after an ADV the low bits of the new LFSR, and over a
run of any words without ADV, RTS and reset it stays what it was. After RTS and after reset it shows the start state's
bits. -/
def Obligations.DigitStaysUntilLfsrIsWritten : Prop :=
  (∀ s : State, s.outputs.digit = s.lfsr.extractLsb' 0 2) ∧
  (∀ s t : State, exec .adv s = .next t → t.outputs.digit = (advance Config.lfsrMask s.lfsr).extractLsb' 0 2) ∧
  (∀ s t : State, exec .rts s = .next t ∨ exec .reset s = .next t → t.outputs.digit = t.start.extractLsb' 0 2) ∧
  (∀ (ws : List InputWord) (s : State),
    (∀ w ∈ ws, carries .adv w = false ∧ carries .rts w = false ∧ carries .reset w = false) →
    ∃ t, runInputs ws s = .next t ∧ t.outputs.digit = s.outputs.digit)

/-- RTS (R62): LFSR takes START; START, SEEDP and PSEED are unchanged; twice is once; the digit shows `START[1:0]`. -/
def Obligations.RtsReturnsToStart : Prop :=
  (∀ s : State, exec .rts s = .next { s with lfsr := s.start }) ∧
  (∀ s : State, CommandWord 0x2#4 s.inputWord → s.cmdIllegal = false ∧
    step s = .next { withTicks (unpack s.inputWord) s.nextCycle with lfsr := s.start }) ∧
  (∀ s t : State, exec .rts s = .next t → exec .rts t = .next t ∧ t.outputs.digit = s.start.extractLsb' 0 2)

/-- RSD (R63): START takes the operand, zero included; LFSR, SEEDP and PSEED are unchanged. After RSD of zero and the
next RTS the generator emits digit 0 at every advance. -/
def Obligations.RsdOverwritesStart : Prop :=
  (∀ (newStart : Word) (s : State), exec (.rsd newStart) s = .next { s with start := newStart }) ∧
  (∀ s : State, CommandWord 0x3#4 s.inputWord → s.cmdIllegal = false ∧ step s = .next
    { withTicks (unpack s.inputWord) s.nextCycle with start := (unpack s.inputWord).cmdData }) ∧
  (∀ (s t u : State) (n : Nat), exec (.rsd 0x00000000#32) s = .next t → exec .rts t = .next u →
    digitOf ((advance Config.lfsrMask)^[n] u.lfsr) = 0#2)

/-- SRQ (R64): PSEED takes the operand and SEEDP becomes 1; LFSR and START are unchanged; a second request replaces the
first. -/
def Obligations.SrqLeavesASeed : Prop :=
  (∀ (seed : Word) (s : State), exec (.srq seed) s = .next { s with pseed := seed, seedp := true }) ∧
  (∀ s : State, CommandWord 0x4#4 s.inputWord → s.cmdIllegal = false ∧ step s = .next
    { withTicks (unpack s.inputWord) s.nextCycle with pseed := (unpack s.inputWord).cmdData, seedp := true }) ∧
  (∀ (a b : Word) (s t : State), exec (.srq a) s = .next t → exec (.srq b) t = exec (.srq b) s)

/-- SAP (R65): with SEEDP = 1, START takes PSEED and SEEDP becomes 0; with SEEDP = 0 nothing changes; twice is once. -/
def Obligations.SapAppliesAPendingSeed : Prop :=
  (∀ s : State, s.seedp = true → exec .sap s = .next { s with start := s.pseed, seedp := false }) ∧
  (∀ s : State, s.seedp = false → exec .sap s = .next s) ∧
  (∀ s : State, CommandWord 0x5#4 s.inputWord → s.cmdIllegal = false ∧ step s = .next
    { withTicks (unpack s.inputWord) s.nextCycle with
      start := if s.seedp then s.pseed else s.start, seedp := false }) ∧
  (∀ s t : State, exec .sap s = .next t → exec .sap t = .next t)

/-- CAP (R66): START takes LFSR, nothing else changes; CAP followed by RTS leaves LFSR as it was. -/
def Obligations.CapCapturesTheState : Prop :=
  (∀ s : State, exec .cap s = .next { s with start := s.lfsr }) ∧
  (∀ s : State, CommandWord 0x6#4 s.inputWord → s.cmdIllegal = false ∧
    step s = .next { withTicks (unpack s.inputWord) s.nextCycle with start := s.lfsr }) ∧
  (∀ s t u : State, exec .cap s = .next t → exec .rts t = .next u → u.lfsr = s.lfsr)

/-- Idempotence (the sentence of 20_memory.md section 1 that the spec marks as derived): RTS, RSD, SRQ, CAP, ETC and SAP
issued twice in a row leave what they leave once; POLL and ADV do not (for ADV whatever the mask). -/
def Obligations.IdempotentCommands : Prop :=
  (∀ (i : Instr) (s t : State), i.mnemonic ∈ ["RTS", "RSD", "SRQ", "CAP", "ETC", "SAP"] → exec i s = .next t →
    exec i t = .next t) ∧
  (∃ s t u : State, exec .poll s = .next t ∧ exec .poll t = .next u ∧ u ≠ t) ∧
  (∃ s t u : State, exec .adv s = .next t ∧ exec .adv t = .next u ∧ u ≠ t)

/-- Two facts that hold for every mask (40_lfsr.md section 3; the spec marks them as derived from R61): 0 is a fixed
point of the advance; the advance is a bijection exactly when bit 31 of the mask is 1, and with that bit 0 no state
with bit 31 set has a predecessor. Beside them, bit 0 of the digit after a step that shifts out a 0 is bit 1 of the
digit before. -/
def Obligations.AdvanceIsBijectiveExactlyWithTopMaskBit : Prop :=
  ∀ mask : Word,
    advance mask 0#32 = 0#32 ∧
    (Function.Bijective (advance mask) ↔ mask.getLsbD 31 = true) ∧
    (mask.getLsbD 31 = false → ∀ x : Word, x.getLsbD 31 = true → ¬ ∃ y, advance mask y = x) ∧
    (∀ y : Word, y.getLsbD 0 = false → (digitOf (advance mask y)).getLsbD 0 = (digitOf y).getLsbD 1)

/-- With bit 31 of the mask 1 no non-zero state ever leads to 0, in any number of advances (R146). -/
def Obligations.NonZeroStateNeverDiesOut : Prop :=
  ∀ (mask x : Word) (n : Nat), mask.getLsbD 31 = true → x ≠ 0#32 → (advance mask)^[n] x ≠ 0#32

/-- Determinism and replay (R69 a and d; the spec marks it as derived): after an RTS, whatever ticks, polls, seed
requests and writes of START are interleaved, LFSR is START advanced once per ADV; and where nothing writes START it
is still the same START, so that a second RTS replays the same states. -/
def Obligations.ReplayIsDeterministic : Prop :=
  ∀ (ws : List InputWord) (s : State), (∀ w ∈ ws, carries .reset w = false ∧ carries .rts w = false) →
    ∃ t, runInputs (encode .rts :: ws) s = .next t ∧
      t.lfsr = (advance Config.lfsrMask)^[countCarrying .adv ws] s.start ∧
      ((∀ w ∈ ws, carriesNamed "RSD" w = false ∧ carries .sap w = false ∧ carries .cap w = false) → t.start = s.start)

/-- The zero state (R69 c, R146): once LFSR and START are 0 and no seed is pending, LFSR stays 0 and every digit is 0,
as long as nothing resets the block or brings a seed, whatever else is asked of it. -/
def Obligations.ZeroStateStaysZero : Prop :=
  ∀ (ws : List InputWord) (s : State), s.lfsr = 0#32 → s.start = 0#32 → s.seedp = false →
    (∀ w ∈ ws, carries .reset w = false ∧ carriesNamed "RSD" w = false ∧ carriesNamed "SRQ" w = false) →
    ∃ t, runInputs ws s = .next t ∧ t.lfsr = 0#32 ∧ t.start = 0#32 ∧ t.outputs.digit = 0#2

/-- The deferred effect of seeds (R153; the spec marks it as derived): RSD, CAP and SAP leave LFSR; SRQ leaves START;
a request issued between the SAP and the RTS of a round start waits; a second request replaces the first; a requested
seed wins over a captured state. -/
def Obligations.SeedsTakeEffectLater : Prop :=
  (∀ (i : Instr) (s t : State), i.mnemonic ∈ ["RSD", "CAP", "SAP", "SRQ"] → exec i s = .next t → t.lfsr = s.lfsr) ∧
  (∀ (a : Word) (s t : State), exec (.srq a) s = .next t → t.start = s.start) ∧
  (∀ (a : Word) (s : State), ∃ t, runInputs [encode .sap, encode (.srq a), encode .rts] s = .next t ∧
    t.lfsr = (if s.seedp then s.pseed else s.start) ∧ t.start = t.lfsr ∧ t.pseed = a ∧ t.seedp = true) ∧
  (∀ (a b : Word) (s : State), ∃ t, runInputs [encode (.srq a), encode (.srq b), encode .sap] s = .next t ∧
    t.start = b ∧ t.lfsr = s.lfsr ∧ t.seedp = false) ∧
  (∀ (a : Word) (s : State), ∃ t, runInputs [encode (.srq a), encode .cap, encode .sap, encode .rts] s = .next t ∧
    t.start = a ∧ t.lfsr = a)

/-- The pseudo-operations (R54): what each leaves when its trace lines run from any state. -/
def Obligations.PseudoOperationsRun : Prop :=
  ∀ s : State,
    (runInputs (PseudoOp.roundBegin.expand.map TraceLine.word) s = .next
      { s with
        lfsr := if s.seedp then s.pseed else s.start
        start := if s.seedp then s.pseed else s.start
        seedp := false, inputs := [], cycle := s.cycle + 2 }) ∧
    (runInputs (PseudoOp.replayBegin.expand.map TraceLine.word) s = .next
      { s with lfsr := s.start, inputs := [], cycle := s.cycle + 1 }) ∧
    (runInputs (PseudoOp.stepBegin.expand.map TraceLine.word) s = .next
      { s with lfsr := advance Config.lfsrMask s.lfsr, et := 0#16, inputs := [], cycle := s.cycle + 2 }) ∧
    (runInputs (PseudoOp.failReseed.expand.map TraceLine.word) s = .next
      { s with start := s.lfsr, inputs := [], cycle := s.cycle + 1 }) ∧
    (∀ v : Word, runInputs ((PseudoOp.seed v).expand.map TraceLine.word) s = .next
      { s with pseed := v, seedp := true, inputs := [], cycle := s.cycle + 1 }) ∧
    (∀ n : Nat, runInputs ((PseudoOp.wait n).expand.map TraceLine.word) s = .next
      { s with inputs := [], cycle := s.cycle + n }) ∧
    (∀ n : Nat, runInputs ((PseudoOp.ticks n).expand.map TraceLine.word) s = .next
      { s with et := s.et + BitVec.ofNat 16 n, inputs := [], cycle := s.cycle + n })

/-! ## The elapsed-time counter -/

/-- TICK1 (R80): ET is incremented modulo 2^16 and nothing else changes; in a cycle the strobe does so unless ETC fires,
and without strobe and ETC ET keeps its value; `0xFFFF` goes to `0x0000`. -/
def Obligations.Tick1IncrementsElapsedTime : Prop :=
  (∀ s : State, exec .tick1 s = .next { s with et := BitVec.ofNat 16 ((s.et.toNat + 1) % 2 ^ 16) }) ∧
  (∀ s : State, (unpack s.inputWord).rst = false → ¬ CommandWord 0x8#4 s.inputWord →
    ∃ t, step s = .next t ∧
      ((unpack s.inputWord).tick1ms = true → t.et = BitVec.ofNat 16 ((s.et.toNat + 1) % 2 ^ 16)) ∧
      ((unpack s.inputWord).tick1ms = false → t.et = s.et)) ∧
  (∀ s t : State, s.et = 0xFFFF#16 → exec .tick1 s = .next t → t.et = 0x0000#16)

/-- ETC (R81) and ETC against TICK1 (R82): ET becomes 0 and nothing else changes; in a cycle it becomes 0 whether or not
the elapsed-time strobe is there. -/
def Obligations.EtcClearsAndBeatsTick1 : Prop :=
  (∀ s : State, exec .etc s = .next { s with et := 0#16 }) ∧
  (∀ s : State, CommandWord 0x8#4 s.inputWord → s.cmdIllegal = false ∧
    step s = .next { withTicks (unpack s.inputWord) s.nextCycle with et := 0#16 })

/-- Elapsed time over a run (R84; the spec marks it as derived): with no ETC and no reset ET grows by the number of
TICK1 events modulo 65536, whatever else is asked; so a wait for `elapsed >= T` after a clear comes true after T
ticks, stays true until tick 65536, and is then false again (for T > 0). -/
def Obligations.ElapsedTimeCountsTicks : Prop :=
  (∀ (ws : List InputWord) (s : State), (∀ w ∈ ws, carries .reset w = false ∧ carries .etc w = false) →
    ∃ t, runInputs ws s = .next t ∧ t.outputs.elapsed = s.et + BitVec.ofNat 16 (countCarrying .tick1 ws)) ∧
  (∀ (ws : List InputWord) (s : State) (T : Nat), (∀ w ∈ ws, carries .reset w = false ∧ carries .etc w = false) →
    T ≤ 65535 → ∃ t, runInputs (encode .etc :: ws) s = .next t ∧
      (countCarrying .tick1 ws ≤ 65535 → (T ≤ t.outputs.elapsed.toNat ↔ T ≤ countCarrying .tick1 ws)) ∧
      (countCarrying .tick1 ws = 65536 → (T ≤ t.outputs.elapsed.toNat ↔ T = 0)))

/-! ## The debounce filter -/

/-- The change mask, the counters and the commit (R91, R92, R93), button by button and for every threshold; TICKS is
this step with the threshold 2 and leaves every other register. -/
def Obligations.TicksCountsAndCommits : Prop :=
  (∀ (raw : Buttons) (s : State), exec (.ticks raw) s = .next (s.sample 2 raw)) ∧
  (∀ (debounceN : Nat) (raw : Buttons) (s t : State), s.sample debounceN raw = t →
    t = { s with stable := t.stable, cnt0 := t.cnt0, cnt1 := t.cnt1 } ∧
    ∀ i < 4, ∀ (ch : Bool) (n n' : Nat), ch = (raw.getLsbD i ^^ s.stable.getLsbD i) →
      n = 2 * (s.cnt1.getLsbD i).toNat + (s.cnt0.getLsbD i).toNat →
      n' = (if ch = false then 0 else if n + 1 ≥ debounceN then 0 else n + 1) →
      t.cnt1.getLsbD i = n'.testBit 1 ∧ t.cnt0.getLsbD i = n'.testBit 0 ∧
      t.stable.getLsbD i = (if ch = true ∧ n + 1 ≥ debounceN then !s.stable.getLsbD i else s.stable.getLsbD i) ∧
      (ch = true → n + 1 ≥ debounceN → t.stable.getLsbD i = raw.getLsbD i))

/-- The sampling tick (R90): TICKS touches STABLE, CNT0 and CNT1 alone; in a cycle with the strobe these take what TICKS
gives them; without it they keep their values and `btn_raw` is not looked at; what TICKS leaves for a button depends on
nothing of another button. -/
def Obligations.FilterActsOnTheStrobeButtonByButton : Prop :=
  (∀ (raw : Buttons) (s : State), ∃ t, exec (.ticks raw) s = .next t ∧
    t = { s with stable := t.stable, cnt0 := t.cnt0, cnt1 := t.cnt1 }) ∧
  (∀ s : State, (unpack s.inputWord).rst = false → ∃ t, step s = .next t ∧
    ((unpack s.inputWord).tickSample = true → ∃ u, exec (.ticks (unpack s.inputWord).btnRaw) s = .next u ∧
      t.stable = u.stable ∧ t.cnt0 = u.cnt0 ∧ t.cnt1 = u.cnt1) ∧
    ((unpack s.inputWord).tickSample = false → t.stable = s.stable ∧ t.cnt0 = s.cnt0 ∧ t.cnt1 = s.cnt1 ∧
      ∀ raw : Buttons, step (s.driveInput (pack { unpack s.inputWord with btnRaw := raw })) = .next t)) ∧
  (∀ (i : Nat) (raw raw' : Buttons) (s s' t t' : State), i < 4 →
    raw.getLsbD i = raw'.getLsbD i → s.stable.getLsbD i = s'.stable.getLsbD i →
    s.cnt0.getLsbD i = s'.cnt0.getLsbD i → s.cnt1.getLsbD i = s'.cnt1.getLsbD i →
    exec (.ticks raw) s = .next t → exec (.ticks raw') s' = .next t' →
    t.stable.getLsbD i = t'.stable.getLsbD i ∧ t.cnt0.getLsbD i = t'.cnt0.getLsbD i ∧
    t.cnt1.getLsbD i = t'.cnt1.getLsbD i)

/-- The bitwise form for the threshold 2 (R94; the spec marks it as derived): it gives the same result for every value
of the three registers and of `btn_raw`. -/
def Obligations.BitwiseFormForTwo : Prop :=
  ∀ (s : State) (raw : Buttons), s.sample 2 raw = s.sampleBitwise2 raw ∧ exec (.ticks raw) s = .next (s.sampleBitwise2 raw)

/-- The bitwise form for the threshold 3 (R95; the spec marks it as derived), which this hardware does not use (log
5). -/
def Obligations.BitwiseFormForThree : Prop :=
  ∀ (s : State) (raw : Buttons), s.sample 3 raw = s.sampleBitwise3 raw

/-- Over any run without reset the filter is a function of the raw levels at the sampling ticks alone (R90, R97; the
spec marks it as derived): no command, no elapsed-time tick and no level between sampling ticks has a part in it. -/
def Obligations.FilterSeesOnlySamples : Prop :=
  ∀ (ws : List InputWord) (s : State), (∀ w ∈ ws, carries .reset w = false) →
    ∃ t, runInputs ws s = .next t ∧ t.stable = (sampleRun (samplesOf ws) s).stable ∧
      t.cnt0 = (sampleRun (samplesOf ws) s).cnt0 ∧ t.cnt1 = (sampleRun (samplesOf ws) s).cnt1

/-- Short changes never commit (R97 a and c; the spec marks it as derived): from count 0, samples of which no two
neighbours both differ from the stable level of a button never change it, however long the run, an alternating line
among them. -/
def Obligations.NoTwoNeighboursNoCommit : Prop :=
  ∀ (raws : List Buttons) (s : State) (i : Nat), i < 4 → laneCount s.cnt0 s.cnt1 i = 0 →
    raws.IsChain (fun a b => a.getLsbD i = s.stable.getLsbD i ∨ b.getLsbD i = s.stable.getLsbD i) →
    (sampleRun raws s).stable.getLsbD i = s.stable.getLsbD i

/-- Two consecutive qualifying samples commit (R97 b and d; the spec marks it as derived): from count 0 the second
flips the stable level and leaves count 0, so no single sample after it commits again. -/
def Obligations.TwoQualifyingSamplesCommit : Prop :=
  ∀ (a b c : Buttons) (s : State) (i : Nat), i < 4 → laneCount s.cnt0 s.cnt1 i = 0 →
    a.getLsbD i ≠ s.stable.getLsbD i → b.getLsbD i ≠ s.stable.getLsbD i →
    (sampleRun [a] s).stable.getLsbD i = s.stable.getLsbD i ∧
    (sampleRun [a, b] s).stable.getLsbD i = b.getLsbD i ∧
    laneCount (sampleRun [a, b] s).cnt0 (sampleRun [a, b] s).cnt1 i = 0 ∧
    (sampleRun [a, b, c] s).stable.getLsbD i = b.getLsbD i

/-- The legal counts are an invariant (R25; the spec marks it as derived): every step keeps every sample count below
the threshold. -/
def Obligations.StepKeepsCountsLegal : Prop :=
  ∀ s t : State, CountsLegal s → step s = .next t → CountsLegal t

/-- The counts are legal after reset, and with the threshold 2 legal counts are those with CNT1 = `0b0000` (R25; the
spec marks it as derived). -/
def Obligations.ResetCountsAreLegal : Prop :=
  CountsLegal State.reset ∧ ∀ s : State, CountsLegal s ↔ s.cnt1 = 0b0000#4 ∧ ∀ i < 4,
    laneCount s.cnt0 s.cnt1 i = (s.cnt0.getLsbD i).toNat

/-- A button held through reset (R155; the spec marks it as derived): whatever the state before and the other lines,
it is committed as pressed at the second sampling tick after reset and shows a press edge at the following POLL. -/
def Obligations.ButtonHeldThroughResetIsAPress : Prop :=
  ∀ (a b : Buttons) (s : State) (i : Nat), i < 4 → a.getLsbD i = false → b.getLsbD i = false →
    ∃ t u, runInputs [encode .reset, encode (.ticks a), encode (.ticks b)] s = .next t ∧
      t.stable.getLsbD i = false ∧ t.outputs.press.getLsbD i = false ∧
      runInputs [encode .reset, encode (.ticks a), encode (.ticks b), encode .poll] s = .next u ∧
      u.outputs.press.getLsbD i = true ∧ u.outputs.release.getLsbD i = false

/-! ## The snapshot pair and the edges -/

/-- POLL (R100), and POLL with TICKS in one cycle (R101): PREV takes CUR, CUR takes STABLE as it was before the edge,
nothing else changes; the commits of the cycle are in STABLE after it. -/
def Obligations.PollTakesTheSnapshots : Prop :=
  (∀ s : State, exec .poll s = .next { s with cur := s.stable, prev := s.cur }) ∧
  (∀ s : State, CommandWord 0x9#4 s.inputWord → s.cmdIllegal = false ∧
    step s = .next { withTicks (unpack s.inputWord) s.nextCycle with cur := s.stable, prev := s.cur })

/-- The logical view and the edges (R102, R103, R104), bit by bit: pressed is level 0, a press is a button not pressed
at the poll before and pressed at the latest, a release the reverse. -/
def Obligations.EdgesAreTransitions : Prop :=
  (∀ (v : Buttons) (i : Nat), i < 4 → ((pressed v).getLsbD i = true ↔ v.getLsbD i = false)) ∧
  (∀ (s : State) (i : Nat), i < 4 →
    (s.outputs.press.getLsbD i = true ↔ s.cur.getLsbD i = false ∧ s.prev.getLsbD i = true) ∧
    (s.outputs.release.getLsbD i = true ↔ s.cur.getLsbD i = true ∧ s.prev.getLsbD i = false)) ∧
  (∀ s : State, s.outputs.press = ~~~s.cur &&& s.prev ∧ s.outputs.release = s.cur &&& ~~~s.prev)

/-- The fixed-priority selection (R105): `press_any` tells whether there is a press edge, `press_idx` is the lowest
index that shows one, and 0 where none does; no press edge is shown again after the next POLL, honored or not. -/
def Obligations.PressIndexIsTheLowest : Prop :=
  ∀ s : State,
    (s.outputs.pressAny = true ↔ s.outputs.press ≠ 0b0000#4) ∧
    (s.outputs.pressAny = true →
      s.outputs.press.getLsbD s.outputs.pressIdx.toNat = true ∧
      ∀ j < s.outputs.pressIdx.toNat, s.outputs.press.getLsbD j = false) ∧
    (s.outputs.pressAny = false → s.outputs.pressIdx = 0#2) ∧
    (∀ t : State, exec .poll s = .next t → t.outputs.press &&& s.outputs.press = 0b0000#4)

/-- The edge laws (R107 a and b; the spec marks it as derived): no button shows both edges, and one shows an edge
exactly where the snapshots differ. -/
def Obligations.EdgesAreExclusiveAndExact : Prop :=
  ∀ s : State, s.outputs.press &&& s.outputs.release = 0b0000#4 ∧
    s.outputs.press ||| s.outputs.release = s.cur ^^^ s.prev

/-- An edge stays on the outputs from its POLL until the next one (R107 c; the spec marks it as derived): a run of any
words without POLL and reset leaves press, release, press_any and press_idx as they were, however many cycles it has.
-/
def Obligations.EdgesStayUntilTheNextPoll : Prop :=
  ∀ (ws : List InputWord) (s : State), (∀ w ∈ ws, carries .reset w = false ∧ carries .poll w = false) →
    ∃ t, runInputs ws s = .next t ∧ t.outputs.press = s.outputs.press ∧ t.outputs.release = s.outputs.release ∧
      t.outputs.pressAny = s.outputs.pressAny ∧ t.outputs.pressIdx = s.outputs.pressIdx

/-- What the edge detector cannot see (R107 d; the spec marks it as derived; R108): where a button's stable level at a
POLL is what it was at the POLL before, no edge is shown, whatever it did between them; where it differs, exactly one
is. -/
def Obligations.EdgesCompareTheLastTwoPolls : Prop :=
  ∀ (ws : List InputWord) (s : State) (i : Nat), i < 4 →
    (∀ w ∈ ws, carries .reset w = false ∧ carries .poll w = false) →
    ∃ t u, runInputs (encode .poll :: ws) s = .next t ∧ exec .poll t = .next u ∧
      (u.outputs.press.getLsbD i = true ↔ s.stable.getLsbD i = true ∧ t.stable.getLsbD i = false) ∧
      (u.outputs.release.getLsbD i = true ↔ s.stable.getLsbD i = false ∧ t.stable.getLsbD i = true)

/-! ## The whole state -/

/-- Who writes and who reads every register (R21). An operation that is not listed as a writer of a register leaves it
unchanged. One that is not listed as a reader of a register gives every other register the same value whatever that
register holds. An output that is not listed as a reader of a register does not depend on it. -/
def Obligations.EveryRegisterHasItsWritersAndReaders : Prop :=
  (∀ (i : Instr) (s t : State), exec i s = .next t →
     (t.lfsr ≠ s.lfsr → i.mnemonic ∈ ["ADV", "RTS", "RESET"]) ∧
     (t.start ≠ s.start → i.mnemonic ∈ ["RSD", "CAP", "RESET"] ∨ (i.mnemonic = "SAP" ∧ s.seedp = true)) ∧
     (t.pseed ≠ s.pseed → i.mnemonic ∈ ["SRQ", "RESET"]) ∧
     (t.seedp ≠ s.seedp → i.mnemonic ∈ ["SRQ", "SAP", "RESET"]) ∧
     (t.et ≠ s.et → i.mnemonic ∈ ["TICK1", "ETC", "RESET"]) ∧
     (t.stable ≠ s.stable → i.mnemonic ∈ ["TICKS", "RESET"]) ∧
     (t.cnt0 ≠ s.cnt0 → i.mnemonic ∈ ["TICKS", "RESET"]) ∧
     (t.cnt1 ≠ s.cnt1 → i.mnemonic ∈ ["TICKS", "RESET"]) ∧
     (t.cur ≠ s.cur → i.mnemonic ∈ ["POLL", "RESET"]) ∧
     (t.prev ≠ s.prev → i.mnemonic ∈ ["POLL", "RESET"]) ∧
     t.inputs = s.inputs ∧ t.cycle = s.cycle) ∧
  (∀ (i : Instr) (s t : State), exec i s = .next t →
     (i.mnemonic ∉ ["ADV", "CAP"] → ∀ v, ∃ u, exec i { s with lfsr := v } = .next u ∧
       { u with lfsr := 0#32 } = { t with lfsr := 0#32 }) ∧
     (i.mnemonic ≠ "RTS" → ∀ v, ∃ u, exec i { s with start := v } = .next u ∧
       { u with start := 0#32 } = { t with start := 0#32 }) ∧
     ((i.mnemonic ≠ "SAP" ∨ s.seedp = false) → ∀ v, ∃ u, exec i { s with pseed := v } = .next u ∧
       { u with pseed := 0#32 } = { t with pseed := 0#32 }) ∧
     (i.mnemonic ≠ "SAP" → ∀ v, ∃ u, exec i { s with seedp := v } = .next u ∧
       { u with seedp := false } = { t with seedp := false }) ∧
     (i.mnemonic ≠ "TICK1" → ∀ v, ∃ u, exec i { s with et := v } = .next u ∧
       { u with et := 0#16 } = { t with et := 0#16 }) ∧
     (i.mnemonic ∉ ["TICKS", "POLL"] → ∀ v, ∃ u, exec i { s with stable := v } = .next u ∧
       { u with stable := 0#4 } = { t with stable := 0#4 }) ∧
     (i.mnemonic ≠ "TICKS" → ∀ v v', ∃ u, exec i { s with cnt0 := v, cnt1 := v' } = .next u ∧
       { u with cnt0 := 0#4, cnt1 := 0#4 } = { t with cnt0 := 0#4, cnt1 := 0#4 }) ∧
     (i.mnemonic ≠ "POLL" → ∀ v, ∃ u, exec i { s with cur := v } = .next u ∧
       { u with cur := 0#4 } = { t with cur := 0#4 }) ∧
     (∀ v, ∃ u, exec i { s with prev := v } = .next u ∧ { u with prev := 0#4 } = { t with prev := 0#4 })) ∧
  (∀ s : State,
    (∀ v, ({ s with lfsr := v } : State).outputs = { s.outputs with lfsr := v, digit := v.extractLsb' 0 2 }) ∧
    (∀ v, ({ s with start := v } : State).outputs = { s.outputs with start := v }) ∧
    (∀ v, ({ s with pseed := v } : State).outputs = s.outputs) ∧
    (∀ v, ({ s with seedp := v } : State).outputs = { s.outputs with seedPending := v }) ∧
    (∀ v, ({ s with et := v } : State).outputs = { s.outputs with elapsed := v }) ∧
    (∀ v, ({ s with stable := v } : State).outputs = { s.outputs with stable := v }) ∧
    (∀ v, ({ s with cnt0 := v } : State).outputs = s.outputs) ∧
    (∀ v, ({ s with cnt1 := v } : State).outputs = s.outputs) ∧
    (∀ v, ∃ press release pressAny pressIdx, ({ s with cur := v } : State).outputs =
      { s.outputs with
        cur := v, press := press, release := release, pressAny := pressAny, pressIdx := pressIdx }) ∧
    (∀ v, ∃ press release pressAny pressIdx, ({ s with prev := v } : State).outputs =
      { s.outputs with
        prev := v, press := press, release := release, pressAny := pressAny, pressIdx := pressIdx }))

/-- The flag (R14): SEEDP is 1 after SRQ, 0 after SAP and after reset, and unchanged after every other operation. -/
def Obligations.SeedPendingHasThreeWriters : Prop :=
  ∀ (i : Instr) (s t : State), exec i s = .next t →
    t.outputs.seedPending =
      if i.mnemonic = "SRQ" then true else if i.mnemonic ∈ ["SAP", "RESET"] then false else s.seedp

/-- PSEED is hidden while no seed is pending (R24; the spec marks it as derived): two runs of any length from states
that differ in PSEED alone, with SEEDP = 0, show the same outputs in every cycle, over listed and free inputs alike.
So its reset value is unobservable. -/
def Obligations.PseedIsHiddenWhileNotPending : Prop :=
  ∀ (n : Nat) (s t : State) (v : Word), s.seedp = false → Host.Core.run Sys2Proof.core n s = .next t →
    ∃ u : State, Host.Core.run Sys2Proof.core n ({ s with pseed := v } : State) = .next u ∧
      u.outputs = t.outputs ∧ u.cmdIllegal = t.cmdIllegal

/-- No invariant ties LFSR to START, CUR to STABLE or PREV to CUR (R25): any combination of their values is reached from
the reset state by some run of input words. -/
def Obligations.AnyCombinationIsReachable : Prop :=
  ∀ (lfsr start : Word) (stable cur prev : Buttons),
    ∃ (ws : List InputWord) (t : State), runInputs ws State.reset = .next t ∧
      t.lfsr = lfsr ∧ t.start = start ∧ t.stable = stable ∧ t.cur = cur ∧ t.prev = prev
end

