-- ==== Sys2Proof/Laws/Decode.lean ====
section
/-! SUPPORT. Laws of the packing, the decoder and the encoder: what later proofs cite instead of unfolding them. -/

namespace Sys2Proof

/-! ## The packing -/

@[simp] theorem unpack_rst (w : InputWord) : (unpack w).rst = w.getLsbD 43 := rfl
@[simp] theorem unpack_tick1ms (w : InputWord) : (unpack w).tick1ms = w.getLsbD 42 := rfl
@[simp] theorem unpack_tickSample (w : InputWord) : (unpack w).tickSample = w.getLsbD 41 := rfl
@[simp] theorem unpack_btnRaw (w : InputWord) : (unpack w).btnRaw = w.extractLsb' 37 4 := rfl
@[simp] theorem unpack_cmdValid (w : InputWord) : (unpack w).cmdValid = w.getLsbD 36 := rfl
@[simp] theorem unpack_cmdOp (w : InputWord) : (unpack w).cmdOp = w.extractLsb' 32 4 := rfl
@[simp] theorem unpack_cmdData (w : InputWord) : (unpack w).cmdData = w.extractLsb' 0 32 := rfl

/-- No port is lost or changed by the packing of R43. -/
@[simp] theorem unpack_pack (p : Ports) : unpack (pack p) = p := by
  obtain ⟨rst, t1, ts, raw, valid, op, data⟩ := p
  simp only [unpack, pack, Ports.mk.injEq]
  refine ⟨?_, ?_, ?_, ?_, ?_, ?_, ?_⟩
  · simp only [BitVec.getLsbD_append]; simp
  · simp only [BitVec.getLsbD_append]; simp
  · simp only [BitVec.getLsbD_append]; simp
  · refine BitVec.eq_of_getLsbD_eq fun i hi => ?_
    have h1 : ¬ 37 + i < 32 := by omega
    have h2 : ¬ 37 + i - 32 < 4 := by omega
    have h3 : ¬ 37 + i - 32 - 4 < 1 := by omega
    have h4 : 37 + i - 32 - 4 - 1 = i := by omega
    simp only [BitVec.getLsbD_append, BitVec.getLsbD_extractLsb', h1, h2, h3, h4, hi, if_true, if_false, decide_true,
      Bool.true_and]
  · simp only [BitVec.getLsbD_append]; simp
  · refine BitVec.eq_of_getLsbD_eq fun i hi => ?_
    have h1 : ¬ 32 + i < 32 := by omega
    have h2 : 32 + i - 32 = i := by omega
    simp only [BitVec.getLsbD_append, BitVec.getLsbD_extractLsb', h1, h2, hi, if_true, if_false, decide_true,
      Bool.true_and]
  · refine BitVec.eq_of_getLsbD_eq fun i hi => ?_
    simp only [BitVec.getLsbD_append, BitVec.getLsbD_extractLsb', Nat.zero_add, hi, if_true, decide_true,
      Bool.true_and]

/-- An input word is its ports: no bit of it is outside the fields of R43. -/
@[simp] theorem pack_unpack (w : InputWord) : pack (unpack w) = w := by
  ext i hi
  rw [← BitVec.getLsbD_eq_getElem, ← BitVec.getLsbD_eq_getElem]
  simp only [unpack, pack, BitVec.getLsbD_append, BitVec.getLsbD_extractLsb']
  split
  · simp [*]
  · split
    · have : 32 + (i - 32) = i := by omega
      simp [*]
    · split
      · have h : i = 36 := by omega
        subst h
        simp
      · split
        · have : 37 + (i - 32 - 4 - 1) = i := by omega
          simp [*]
        · split
          · have h : i = 41 := by omega
            subst h
            simp
          · split
            · have h : i = 42 := by omega
              subst h
              simp
            · have h : i = 43 := by omega
              subst h
              simp

/-! ## The opcode map -/

/-- A reserved opcode selects no operation, every other opcode one. -/
theorem commandOf_eq_none (op : Opcode) (data : Word) : commandOf op data = none ↔ reservedOpcode op = true := by
  have h : ∀ o : Opcode, (commandOf o 0#32 = none ↔ reservedOpcode o = true) := by decide
  have hd : commandOf op data = none ↔ commandOf op 0#32 = none := by
    unfold commandOf
    split <;> simp
  exact hd.trans (h op)

/-- What the opcode map selects is a command. -/
theorem commandOf_group {op : Opcode} {data : Word} {i : Instr} (h : commandOf op data = some i) :
    i.group = .command := by
  unfold commandOf at h
  split at h <;> first | (cases h; rfl) | cases h

/-! ## Cycles -/

/-- The word of a list of operations drives exactly the ports they ask for. -/
@[simp] theorem unpack_encodeCycle (is : List Instr) : unpack (encodeCycle is) = is.foldr drive idlePorts :=
  unpack_pack _

/-- Decoding a packed word is decoding its ports. -/
@[simp] theorem decodeCycle_pack (p : Ports) : decodeCycle (pack p) = decodePorts p := by
  simp [decodeCycle]

/-- A cycle with `rst` = 1 is RESET and nothing else. -/
theorem decodePorts_rst {p : Ports} (h : p.rst = true) : decodePorts p = [.reset] := by simp [decodePorts, h]

/-- A cycle with `rst` = 0 is its three groups. -/
theorem decodePorts_groups {p : Ports} (h : p.rst = false) :
    decodePorts p = elapsedEvents p ++ commandEvents p ++ samplingEvents p := by simp [decodePorts, h]

/-- A decoded single operation is what the cycle carries, or NOP where the cycle carries nothing. -/
theorem decodeWord_ok {w : InputWord} {i : Instr} (h : decodeWord w = .ok i) :
    decodeCycle w = [i] ∨ (decodeCycle w = [] ∧ i = .nop) := by
  unfold decodeWord at h
  unfold decodeCycle
  by_cases hr : (unpack w).rst = true
  · simp only [hr, if_true, Except.ok.injEq] at h
    exact .inl (h ▸ decodePorts_rst hr)
  · simp only [hr, if_false, Bool.false_eq_true] at h
    split at h
    · cases h
    · split at h
      · next hn => exact .inr ⟨hn, by simpa using h.symm⟩
      · next j hj => exact .inl (by rw [hj]; simpa using h)
      · cases h

end Sys2Proof
end

