-- ==== Sys2Proof/Laws/Ops.lean ====
section
/-! SUPPORT. One lemma per shared operation: what it can do, bit by bit. -/

namespace Sys2Proof.Machine

/-! ## The 4-bit vectors -/

/-- Bit i of a vector built by lanes is the value given for i. -/
theorem lanes_getLsbD (f : Nat → Bool) {i : Nat} (h : i < 4) : (lanes f).getLsbD i = f i := by
  obtain rfl | rfl | rfl | rfl : i = 0 ∨ i = 1 ∨ i = 2 ∨ i = 3 := by omega
  all_goals simp only [lanes, BitVec.getLsbD_append]; simp

/-- Two button vectors are equal when their four bits are. -/
theorem buttons_ext {a b : Buttons} (h : ∀ i < 4, a.getLsbD i = b.getLsbD i) : a = b :=
  BitVec.eq_of_getLsbD_eq h

@[simp] theorem changeMask_getLsbD (raw stable : Buttons) (i : Nat) :
    (changeMask raw stable).getLsbD i = (raw.getLsbD i ^^ stable.getLsbD i) := by simp [changeMask]

/-- The logical view in this hardware: 1 where the level is 0 (R102). -/
theorem pressed_eq (levels : Buttons) : pressed levels = ~~~levels := by simp [pressed, Config.pressedLevel]

@[simp] theorem allReleased_eq : Config.allReleased = 0b1111#4 := rfl

@[simp] theorem debounceN_eq : Config.debounceN = 2 := rfl

/-! ## The debounce filter, lane by lane (R92, R93) -/

theorem filterStable_getLsbD (n : Nat) (raw stable cnt0 cnt1 : Buttons) {i : Nat} (h : i < 4) :
    (filterStable n raw stable cnt0 cnt1).getLsbD i =
      if laneCommits n (raw.getLsbD i ^^ stable.getLsbD i) (laneCount cnt0 cnt1 i) then !stable.getLsbD i
      else stable.getLsbD i := by
  rw [filterStable, lanes_getLsbD _ h, changeMask_getLsbD]

theorem filterCnt0_getLsbD (n : Nat) (raw stable cnt0 cnt1 : Buttons) {i : Nat} (h : i < 4) :
    (filterCnt0 n raw stable cnt0 cnt1).getLsbD i =
      (laneNextCount n (raw.getLsbD i ^^ stable.getLsbD i) (laneCount cnt0 cnt1 i)).testBit 0 := by
  rw [filterCnt0, lanes_getLsbD _ h, changeMask_getLsbD]

theorem filterCnt1_getLsbD (n : Nat) (raw stable cnt0 cnt1 : Buttons) {i : Nat} (h : i < 4) :
    (filterCnt1 n raw stable cnt0 cnt1).getLsbD i =
      (laneNextCount n (raw.getLsbD i ^^ stable.getLsbD i) (laneCount cnt0 cnt1 i)).testBit 1 := by
  rw [filterCnt1, lanes_getLsbD _ h, changeMask_getLsbD]

/-- A sample count is one of four numbers. -/
theorem laneCount_lt (cnt0 cnt1 : Buttons) (i : Nat) : laneCount cnt0 cnt1 i < 4 := by
  unfold laneCount
  cases cnt0.getLsbD i <;> cases cnt1.getLsbD i <;> decide

/-! ## The generator -/

/-- The transition written with a masked XOR. -/
theorem advance_eq_xor (mask lfsr : Word) :
    advance mask lfsr = (lfsr >>> 1) ^^^ (if lfsr.getLsbD 0 then mask else 0#32) := by
  unfold advance
  split <;> simp

/-- Bit i of the advanced state: the next higher bit of the old state, flipped where the mask applies. -/
theorem advance_getLsbD (mask lfsr : Word) (i : Nat) :
    (advance mask lfsr).getLsbD i = (lfsr.getLsbD (i + 1) ^^ (lfsr.getLsbD 0 && mask.getLsbD i)) := by
  rw [advance_eq_xor]
  cases h : lfsr.getLsbD 0 <;> simp [Nat.add_comm]

/-! ## The seed -/

/-- `INIT_SEED` is not zero (R5). -/
theorem initSeed_ne_zero : Config.initSeed ≠ 0#32 := by
  intro h
  have hv := congrArg BitVec.toNat h
  have hlt := Config.initSeedIndex.isLt
  simp only [Config.initSeed, BitVec.toNat_ofNat] at hv
  omega

/-! ## The input port -/

@[simp] theorem driveInput_inputWord (s : State) (w : InputWord) : (s.driveInput w).inputWord = w := rfl

@[simp] theorem driveInput_nextCycle (s : State) (w : InputWord) : (s.driveInput w).nextCycle = s.nextCycle := rfl

end Sys2Proof.Machine
end

