-- ==== Sys2Proof/Laws/PerInstr.lean ====
section
/-! SUPPORT. Families of facts about the operations as syntax, one lemma per constructor. -/

namespace Sys2Proof.Laws

/-! ## RowMatch: the canonical word of an operation fits the row of its mnemonic and no row of another command -/

/-- The rows of the opcode table that the operation's canonical word fits are exactly those of its mnemonic. -/
def RowMatch.Statement (i : Instr) : Prop :=
  ∀ r ∈ opcodeTable, (r.fits (encode i) = true ↔ r.mnemonic = i.mnemonic)

/-- A mask that leaves the operand out does not see it. -/
theorem and_mask_operand (high mask : BitVec 12) (v : Word) :
    (high ++ v) &&& (mask ++ 0#32) = (high &&& mask) ++ 0#32 := by
  rw [BitVec.and_append, BitVec.and_zero]

theorem RowMatch.nop : RowMatch.Statement .nop := by unfold RowMatch.Statement; decide
theorem RowMatch.adv : RowMatch.Statement .adv := by unfold RowMatch.Statement; decide
theorem RowMatch.rts : RowMatch.Statement .rts := by unfold RowMatch.Statement; decide
theorem RowMatch.sap : RowMatch.Statement .sap := by unfold RowMatch.Statement; decide
theorem RowMatch.cap : RowMatch.Statement .cap := by unfold RowMatch.Statement; decide
theorem RowMatch.etc : RowMatch.Statement .etc := by unfold RowMatch.Statement; decide
theorem RowMatch.poll : RowMatch.Statement .poll := by unfold RowMatch.Statement; decide
theorem RowMatch.reset : RowMatch.Statement .reset := by unfold RowMatch.Statement; decide
theorem RowMatch.tick1 : RowMatch.Statement .tick1 := by unfold RowMatch.Statement; decide

theorem RowMatch.ticks (btnRaw : Buttons) : RowMatch.Statement (.ticks btnRaw) := by
  unfold RowMatch.Statement
  revert btnRaw
  decide

/-- Every mask of the table leaves the operand out. -/
theorem opcodeTable_masks : ∀ r ∈ opcodeTable, r.mask = r.mask.extractLsb' 32 12 ++ 0#32 := by decide

/-- A row does not see the operand. -/
theorem fits_operand {r : Row} (hr : r ∈ opcodeTable) (high : BitVec 12) (v : Word) :
    r.fits (high ++ v) = r.fits (high ++ 0#32) := by
  have hm := opcodeTable_masks r hr
  rw [Row.fits, Row.fits, hm, and_mask_operand, and_mask_operand]

/-- The twelve bits above the operand in the word of a command. -/
def commandHigh (op : Opcode) : BitVec 12 :=
  BitVec.ofBool false ++ BitVec.ofBool false ++ BitVec.ofBool false ++ 0#4 ++ BitVec.ofBool true ++ op

theorem RowMatch.rsd (newStart : Word) : RowMatch.Statement (.rsd newStart) := by
  have h : ∀ r ∈ opcodeTable, (r.fits (commandHigh 0x3#4 ++ 0#32) = true ↔ r.mnemonic = "RSD") := by decide
  intro r hr
  have hw : encode (.rsd newStart) = commandHigh 0x3#4 ++ newStart := by
    simp only [encode, encodeCycle, List.foldr, drive, driveCommand, idlePorts, pack, commandHigh]
  rw [hw, fits_operand hr]
  exact h r hr

theorem RowMatch.srq (seed : Word) : RowMatch.Statement (.srq seed) := by
  have h : ∀ r ∈ opcodeTable, (r.fits (commandHigh 0x4#4 ++ 0#32) = true ↔ r.mnemonic = "SRQ") := by decide
  intro r hr
  have hw : encode (.srq seed) = commandHigh 0x4#4 ++ seed := by
    simp only [encode, encodeCycle, List.foldr, drive, driveCommand, idlePorts, pack, commandHigh]
  rw [hw, fits_operand hr]
  exact h r hr

end Sys2Proof.Laws
end

