-- ==== Sys2Proof/Laws/State.lean ====
section
/-! SUPPORT. What each update of State does to each field: one lemma per field per update. -/

namespace Sys2Proof.Machine

/-! ## State.writeLfsr -/

@[simp] theorem State.writeLfsr_lfsr (s : State) (v : Word) : (s.writeLfsr v).lfsr = v := rfl
@[simp] theorem State.writeLfsr_start (s : State) (v : Word) : (s.writeLfsr v).start = s.start := rfl
@[simp] theorem State.writeLfsr_pseed (s : State) (v : Word) : (s.writeLfsr v).pseed = s.pseed := rfl
@[simp] theorem State.writeLfsr_seedp (s : State) (v : Word) : (s.writeLfsr v).seedp = s.seedp := rfl
@[simp] theorem State.writeLfsr_et (s : State) (v : Word) : (s.writeLfsr v).et = s.et := rfl
@[simp] theorem State.writeLfsr_stable (s : State) (v : Word) : (s.writeLfsr v).stable = s.stable := rfl
@[simp] theorem State.writeLfsr_cnt0 (s : State) (v : Word) : (s.writeLfsr v).cnt0 = s.cnt0 := rfl
@[simp] theorem State.writeLfsr_cnt1 (s : State) (v : Word) : (s.writeLfsr v).cnt1 = s.cnt1 := rfl
@[simp] theorem State.writeLfsr_cur (s : State) (v : Word) : (s.writeLfsr v).cur = s.cur := rfl
@[simp] theorem State.writeLfsr_prev (s : State) (v : Word) : (s.writeLfsr v).prev = s.prev := rfl
@[simp] theorem State.writeLfsr_inputs (s : State) (v : Word) : (s.writeLfsr v).inputs = s.inputs := rfl
@[simp] theorem State.writeLfsr_cycle (s : State) (v : Word) : (s.writeLfsr v).cycle = s.cycle := rfl

/-! ## State.writeStart -/

@[simp] theorem State.writeStart_lfsr (s : State) (v : Word) : (s.writeStart v).lfsr = s.lfsr := rfl
@[simp] theorem State.writeStart_start (s : State) (v : Word) : (s.writeStart v).start = v := rfl
@[simp] theorem State.writeStart_pseed (s : State) (v : Word) : (s.writeStart v).pseed = s.pseed := rfl
@[simp] theorem State.writeStart_seedp (s : State) (v : Word) : (s.writeStart v).seedp = s.seedp := rfl
@[simp] theorem State.writeStart_et (s : State) (v : Word) : (s.writeStart v).et = s.et := rfl
@[simp] theorem State.writeStart_stable (s : State) (v : Word) : (s.writeStart v).stable = s.stable := rfl
@[simp] theorem State.writeStart_cnt0 (s : State) (v : Word) : (s.writeStart v).cnt0 = s.cnt0 := rfl
@[simp] theorem State.writeStart_cnt1 (s : State) (v : Word) : (s.writeStart v).cnt1 = s.cnt1 := rfl
@[simp] theorem State.writeStart_cur (s : State) (v : Word) : (s.writeStart v).cur = s.cur := rfl
@[simp] theorem State.writeStart_prev (s : State) (v : Word) : (s.writeStart v).prev = s.prev := rfl
@[simp] theorem State.writeStart_inputs (s : State) (v : Word) : (s.writeStart v).inputs = s.inputs := rfl
@[simp] theorem State.writeStart_cycle (s : State) (v : Word) : (s.writeStart v).cycle = s.cycle := rfl

/-! ## State.writePseed -/

@[simp] theorem State.writePseed_lfsr (s : State) (v : Word) : (s.writePseed v).lfsr = s.lfsr := rfl
@[simp] theorem State.writePseed_start (s : State) (v : Word) : (s.writePseed v).start = s.start := rfl
@[simp] theorem State.writePseed_pseed (s : State) (v : Word) : (s.writePseed v).pseed = v := rfl
@[simp] theorem State.writePseed_seedp (s : State) (v : Word) : (s.writePseed v).seedp = s.seedp := rfl
@[simp] theorem State.writePseed_et (s : State) (v : Word) : (s.writePseed v).et = s.et := rfl
@[simp] theorem State.writePseed_stable (s : State) (v : Word) : (s.writePseed v).stable = s.stable := rfl
@[simp] theorem State.writePseed_cnt0 (s : State) (v : Word) : (s.writePseed v).cnt0 = s.cnt0 := rfl
@[simp] theorem State.writePseed_cnt1 (s : State) (v : Word) : (s.writePseed v).cnt1 = s.cnt1 := rfl
@[simp] theorem State.writePseed_cur (s : State) (v : Word) : (s.writePseed v).cur = s.cur := rfl
@[simp] theorem State.writePseed_prev (s : State) (v : Word) : (s.writePseed v).prev = s.prev := rfl
@[simp] theorem State.writePseed_inputs (s : State) (v : Word) : (s.writePseed v).inputs = s.inputs := rfl
@[simp] theorem State.writePseed_cycle (s : State) (v : Word) : (s.writePseed v).cycle = s.cycle := rfl

/-! ## State.writeSeedp -/

@[simp] theorem State.writeSeedp_lfsr (s : State) (v : Bool) : (s.writeSeedp v).lfsr = s.lfsr := rfl
@[simp] theorem State.writeSeedp_start (s : State) (v : Bool) : (s.writeSeedp v).start = s.start := rfl
@[simp] theorem State.writeSeedp_pseed (s : State) (v : Bool) : (s.writeSeedp v).pseed = s.pseed := rfl
@[simp] theorem State.writeSeedp_seedp (s : State) (v : Bool) : (s.writeSeedp v).seedp = v := rfl
@[simp] theorem State.writeSeedp_et (s : State) (v : Bool) : (s.writeSeedp v).et = s.et := rfl
@[simp] theorem State.writeSeedp_stable (s : State) (v : Bool) : (s.writeSeedp v).stable = s.stable := rfl
@[simp] theorem State.writeSeedp_cnt0 (s : State) (v : Bool) : (s.writeSeedp v).cnt0 = s.cnt0 := rfl
@[simp] theorem State.writeSeedp_cnt1 (s : State) (v : Bool) : (s.writeSeedp v).cnt1 = s.cnt1 := rfl
@[simp] theorem State.writeSeedp_cur (s : State) (v : Bool) : (s.writeSeedp v).cur = s.cur := rfl
@[simp] theorem State.writeSeedp_prev (s : State) (v : Bool) : (s.writeSeedp v).prev = s.prev := rfl
@[simp] theorem State.writeSeedp_inputs (s : State) (v : Bool) : (s.writeSeedp v).inputs = s.inputs := rfl
@[simp] theorem State.writeSeedp_cycle (s : State) (v : Bool) : (s.writeSeedp v).cycle = s.cycle := rfl

/-! ## State.raiseSeedp -/

@[simp] theorem State.raiseSeedp_lfsr (s : State) : s.raiseSeedp.lfsr = s.lfsr := rfl
@[simp] theorem State.raiseSeedp_start (s : State) : s.raiseSeedp.start = s.start := rfl
@[simp] theorem State.raiseSeedp_pseed (s : State) : s.raiseSeedp.pseed = s.pseed := rfl
@[simp] theorem State.raiseSeedp_seedp (s : State) : s.raiseSeedp.seedp = true := rfl
@[simp] theorem State.raiseSeedp_et (s : State) : s.raiseSeedp.et = s.et := rfl
@[simp] theorem State.raiseSeedp_stable (s : State) : s.raiseSeedp.stable = s.stable := rfl
@[simp] theorem State.raiseSeedp_cnt0 (s : State) : s.raiseSeedp.cnt0 = s.cnt0 := rfl
@[simp] theorem State.raiseSeedp_cnt1 (s : State) : s.raiseSeedp.cnt1 = s.cnt1 := rfl
@[simp] theorem State.raiseSeedp_cur (s : State) : s.raiseSeedp.cur = s.cur := rfl
@[simp] theorem State.raiseSeedp_prev (s : State) : s.raiseSeedp.prev = s.prev := rfl
@[simp] theorem State.raiseSeedp_inputs (s : State) : s.raiseSeedp.inputs = s.inputs := rfl
@[simp] theorem State.raiseSeedp_cycle (s : State) : s.raiseSeedp.cycle = s.cycle := rfl

/-! ## State.clearSeedp -/

@[simp] theorem State.clearSeedp_lfsr (s : State) : s.clearSeedp.lfsr = s.lfsr := rfl
@[simp] theorem State.clearSeedp_start (s : State) : s.clearSeedp.start = s.start := rfl
@[simp] theorem State.clearSeedp_pseed (s : State) : s.clearSeedp.pseed = s.pseed := rfl
@[simp] theorem State.clearSeedp_seedp (s : State) : s.clearSeedp.seedp = false := rfl
@[simp] theorem State.clearSeedp_et (s : State) : s.clearSeedp.et = s.et := rfl
@[simp] theorem State.clearSeedp_stable (s : State) : s.clearSeedp.stable = s.stable := rfl
@[simp] theorem State.clearSeedp_cnt0 (s : State) : s.clearSeedp.cnt0 = s.cnt0 := rfl
@[simp] theorem State.clearSeedp_cnt1 (s : State) : s.clearSeedp.cnt1 = s.cnt1 := rfl
@[simp] theorem State.clearSeedp_cur (s : State) : s.clearSeedp.cur = s.cur := rfl
@[simp] theorem State.clearSeedp_prev (s : State) : s.clearSeedp.prev = s.prev := rfl
@[simp] theorem State.clearSeedp_inputs (s : State) : s.clearSeedp.inputs = s.inputs := rfl
@[simp] theorem State.clearSeedp_cycle (s : State) : s.clearSeedp.cycle = s.cycle := rfl

/-! ## State.writeEt -/

@[simp] theorem State.writeEt_lfsr (s : State) (v : TickCount) : (s.writeEt v).lfsr = s.lfsr := rfl
@[simp] theorem State.writeEt_start (s : State) (v : TickCount) : (s.writeEt v).start = s.start := rfl
@[simp] theorem State.writeEt_pseed (s : State) (v : TickCount) : (s.writeEt v).pseed = s.pseed := rfl
@[simp] theorem State.writeEt_seedp (s : State) (v : TickCount) : (s.writeEt v).seedp = s.seedp := rfl
@[simp] theorem State.writeEt_et (s : State) (v : TickCount) : (s.writeEt v).et = v := rfl
@[simp] theorem State.writeEt_stable (s : State) (v : TickCount) : (s.writeEt v).stable = s.stable := rfl
@[simp] theorem State.writeEt_cnt0 (s : State) (v : TickCount) : (s.writeEt v).cnt0 = s.cnt0 := rfl
@[simp] theorem State.writeEt_cnt1 (s : State) (v : TickCount) : (s.writeEt v).cnt1 = s.cnt1 := rfl
@[simp] theorem State.writeEt_cur (s : State) (v : TickCount) : (s.writeEt v).cur = s.cur := rfl
@[simp] theorem State.writeEt_prev (s : State) (v : TickCount) : (s.writeEt v).prev = s.prev := rfl
@[simp] theorem State.writeEt_inputs (s : State) (v : TickCount) : (s.writeEt v).inputs = s.inputs := rfl
@[simp] theorem State.writeEt_cycle (s : State) (v : TickCount) : (s.writeEt v).cycle = s.cycle := rfl

/-! ## State.writeFilter -/

@[simp] theorem State.writeFilter_lfsr (s : State) (a b c : Buttons) : (s.writeFilter a b c).lfsr = s.lfsr := rfl
@[simp] theorem State.writeFilter_start (s : State) (a b c : Buttons) : (s.writeFilter a b c).start = s.start := rfl
@[simp] theorem State.writeFilter_pseed (s : State) (a b c : Buttons) : (s.writeFilter a b c).pseed = s.pseed := rfl
@[simp] theorem State.writeFilter_seedp (s : State) (a b c : Buttons) : (s.writeFilter a b c).seedp = s.seedp := rfl
@[simp] theorem State.writeFilter_et (s : State) (a b c : Buttons) : (s.writeFilter a b c).et = s.et := rfl
@[simp] theorem State.writeFilter_stable (s : State) (a b c : Buttons) : (s.writeFilter a b c).stable = a := rfl
@[simp] theorem State.writeFilter_cnt0 (s : State) (a b c : Buttons) : (s.writeFilter a b c).cnt0 = b := rfl
@[simp] theorem State.writeFilter_cnt1 (s : State) (a b c : Buttons) : (s.writeFilter a b c).cnt1 = c := rfl
@[simp] theorem State.writeFilter_cur (s : State) (a b c : Buttons) : (s.writeFilter a b c).cur = s.cur := rfl
@[simp] theorem State.writeFilter_prev (s : State) (a b c : Buttons) : (s.writeFilter a b c).prev = s.prev := rfl
@[simp] theorem State.writeFilter_inputs (s : State) (a b c : Buttons) : (s.writeFilter a b c).inputs = s.inputs := rfl
@[simp] theorem State.writeFilter_cycle (s : State) (a b c : Buttons) : (s.writeFilter a b c).cycle = s.cycle := rfl

/-! ## State.writeSnapshots -/

@[simp] theorem State.writeSnapshots_lfsr (s : State) (a b : Buttons) : (s.writeSnapshots a b).lfsr = s.lfsr := rfl
@[simp] theorem State.writeSnapshots_start (s : State) (a b : Buttons) : (s.writeSnapshots a b).start = s.start := rfl
@[simp] theorem State.writeSnapshots_pseed (s : State) (a b : Buttons) : (s.writeSnapshots a b).pseed = s.pseed := rfl
@[simp] theorem State.writeSnapshots_seedp (s : State) (a b : Buttons) : (s.writeSnapshots a b).seedp = s.seedp := rfl
@[simp] theorem State.writeSnapshots_et (s : State) (a b : Buttons) : (s.writeSnapshots a b).et = s.et := rfl
@[simp] theorem State.writeSnapshots_stable (s : State) (a b : Buttons) :
    (s.writeSnapshots a b).stable = s.stable := rfl
@[simp] theorem State.writeSnapshots_cnt0 (s : State) (a b : Buttons) : (s.writeSnapshots a b).cnt0 = s.cnt0 := rfl
@[simp] theorem State.writeSnapshots_cnt1 (s : State) (a b : Buttons) : (s.writeSnapshots a b).cnt1 = s.cnt1 := rfl
@[simp] theorem State.writeSnapshots_cur (s : State) (a b : Buttons) : (s.writeSnapshots a b).cur = a := rfl
@[simp] theorem State.writeSnapshots_prev (s : State) (a b : Buttons) : (s.writeSnapshots a b).prev = b := rfl
@[simp] theorem State.writeSnapshots_inputs (s : State) (a b : Buttons) :
    (s.writeSnapshots a b).inputs = s.inputs := rfl
@[simp] theorem State.writeSnapshots_cycle (s : State) (a b : Buttons) : (s.writeSnapshots a b).cycle = s.cycle := rfl

/-! ## State.sample -/

@[simp] theorem State.sample_lfsr (s : State) (n : Nat) (raw : Buttons) : (s.sample n raw).lfsr = s.lfsr := rfl
@[simp] theorem State.sample_start (s : State) (n : Nat) (raw : Buttons) : (s.sample n raw).start = s.start := rfl
@[simp] theorem State.sample_pseed (s : State) (n : Nat) (raw : Buttons) : (s.sample n raw).pseed = s.pseed := rfl
@[simp] theorem State.sample_seedp (s : State) (n : Nat) (raw : Buttons) : (s.sample n raw).seedp = s.seedp := rfl
@[simp] theorem State.sample_et (s : State) (n : Nat) (raw : Buttons) : (s.sample n raw).et = s.et := rfl
@[simp] theorem State.sample_stable (s : State) (n : Nat) (raw : Buttons) :
    (s.sample n raw).stable = filterStable n raw s.stable s.cnt0 s.cnt1 := rfl
@[simp] theorem State.sample_cnt0 (s : State) (n : Nat) (raw : Buttons) :
    (s.sample n raw).cnt0 = filterCnt0 n raw s.stable s.cnt0 s.cnt1 := rfl
@[simp] theorem State.sample_cnt1 (s : State) (n : Nat) (raw : Buttons) :
    (s.sample n raw).cnt1 = filterCnt1 n raw s.stable s.cnt0 s.cnt1 := rfl
@[simp] theorem State.sample_cur (s : State) (n : Nat) (raw : Buttons) : (s.sample n raw).cur = s.cur := rfl
@[simp] theorem State.sample_prev (s : State) (n : Nat) (raw : Buttons) : (s.sample n raw).prev = s.prev := rfl
@[simp] theorem State.sample_inputs (s : State) (n : Nat) (raw : Buttons) : (s.sample n raw).inputs = s.inputs := rfl
@[simp] theorem State.sample_cycle (s : State) (n : Nat) (raw : Buttons) : (s.sample n raw).cycle = s.cycle := rfl

/-! ## State.resetRegisters -/

@[simp] theorem State.resetRegisters_lfsr (s : State) : s.resetRegisters.lfsr = Config.initSeed := rfl
@[simp] theorem State.resetRegisters_start (s : State) : s.resetRegisters.start = Config.initSeed := rfl
@[simp] theorem State.resetRegisters_pseed (s : State) : s.resetRegisters.pseed = 0#32 := rfl
@[simp] theorem State.resetRegisters_seedp (s : State) : s.resetRegisters.seedp = false := rfl
@[simp] theorem State.resetRegisters_et (s : State) : s.resetRegisters.et = 0#16 := rfl
@[simp] theorem State.resetRegisters_stable (s : State) : s.resetRegisters.stable = Config.allReleased := rfl
@[simp] theorem State.resetRegisters_cnt0 (s : State) : s.resetRegisters.cnt0 = 0#4 := rfl
@[simp] theorem State.resetRegisters_cnt1 (s : State) : s.resetRegisters.cnt1 = 0#4 := rfl
@[simp] theorem State.resetRegisters_cur (s : State) : s.resetRegisters.cur = Config.allReleased := rfl
@[simp] theorem State.resetRegisters_prev (s : State) : s.resetRegisters.prev = Config.allReleased := rfl
@[simp] theorem State.resetRegisters_inputs (s : State) : s.resetRegisters.inputs = s.inputs := rfl
@[simp] theorem State.resetRegisters_cycle (s : State) : s.resetRegisters.cycle = s.cycle := rfl

/-! ## State.nextCycle -/

@[simp] theorem State.nextCycle_lfsr (s : State) : s.nextCycle.lfsr = s.lfsr := rfl
@[simp] theorem State.nextCycle_start (s : State) : s.nextCycle.start = s.start := rfl
@[simp] theorem State.nextCycle_pseed (s : State) : s.nextCycle.pseed = s.pseed := rfl
@[simp] theorem State.nextCycle_seedp (s : State) : s.nextCycle.seedp = s.seedp := rfl
@[simp] theorem State.nextCycle_et (s : State) : s.nextCycle.et = s.et := rfl
@[simp] theorem State.nextCycle_stable (s : State) : s.nextCycle.stable = s.stable := rfl
@[simp] theorem State.nextCycle_cnt0 (s : State) : s.nextCycle.cnt0 = s.cnt0 := rfl
@[simp] theorem State.nextCycle_cnt1 (s : State) : s.nextCycle.cnt1 = s.cnt1 := rfl
@[simp] theorem State.nextCycle_cur (s : State) : s.nextCycle.cur = s.cur := rfl
@[simp] theorem State.nextCycle_prev (s : State) : s.nextCycle.prev = s.prev := rfl
@[simp] theorem State.nextCycle_inputs (s : State) : s.nextCycle.inputs = s.inputs.tail := rfl
@[simp] theorem State.nextCycle_cycle (s : State) : s.nextCycle.cycle = s.cycle + 1 := rfl

/-! ## State.driveInput -/

@[simp] theorem State.driveInput_lfsr (s : State) (w : InputWord) : (s.driveInput w).lfsr = s.lfsr := rfl
@[simp] theorem State.driveInput_start (s : State) (w : InputWord) : (s.driveInput w).start = s.start := rfl
@[simp] theorem State.driveInput_pseed (s : State) (w : InputWord) : (s.driveInput w).pseed = s.pseed := rfl
@[simp] theorem State.driveInput_seedp (s : State) (w : InputWord) : (s.driveInput w).seedp = s.seedp := rfl
@[simp] theorem State.driveInput_et (s : State) (w : InputWord) : (s.driveInput w).et = s.et := rfl
@[simp] theorem State.driveInput_stable (s : State) (w : InputWord) : (s.driveInput w).stable = s.stable := rfl
@[simp] theorem State.driveInput_cnt0 (s : State) (w : InputWord) : (s.driveInput w).cnt0 = s.cnt0 := rfl
@[simp] theorem State.driveInput_cnt1 (s : State) (w : InputWord) : (s.driveInput w).cnt1 = s.cnt1 := rfl
@[simp] theorem State.driveInput_cur (s : State) (w : InputWord) : (s.driveInput w).cur = s.cur := rfl
@[simp] theorem State.driveInput_prev (s : State) (w : InputWord) : (s.driveInput w).prev = s.prev := rfl
@[simp] theorem State.driveInput_inputs (s : State) (w : InputWord) :
    (s.driveInput w).inputs = w :: s.inputs.tail := rfl
@[simp] theorem State.driveInput_cycle (s : State) (w : InputWord) : (s.driveInput w).cycle = s.cycle := rfl

/-! ## State.reset -/

@[simp] theorem State.reset_lfsr : State.reset.lfsr = Config.initSeed := rfl
@[simp] theorem State.reset_start : State.reset.start = Config.initSeed := rfl
@[simp] theorem State.reset_pseed : State.reset.pseed = 0#32 := rfl
@[simp] theorem State.reset_seedp : State.reset.seedp = false := rfl
@[simp] theorem State.reset_et : State.reset.et = 0#16 := rfl
@[simp] theorem State.reset_stable : State.reset.stable = Config.allReleased := rfl
@[simp] theorem State.reset_cnt0 : State.reset.cnt0 = 0#4 := rfl
@[simp] theorem State.reset_cnt1 : State.reset.cnt1 = 0#4 := rfl
@[simp] theorem State.reset_cur : State.reset.cur = Config.allReleased := rfl
@[simp] theorem State.reset_prev : State.reset.prev = Config.allReleased := rfl
@[simp] theorem State.reset_inputs : State.reset.inputs = [] := rfl
@[simp] theorem State.reset_cycle : State.reset.cycle = 0 := rfl

end Sys2Proof.Machine
end

