-- ==== Sys2Proof/Laws/Step.lean ====
section
/-! SUPPORT. What an operation, a cycle, a step and a run answer. -/

namespace Sys2Proof.Machine

/-! ## One operation -/

@[simp] theorem exec_nop (s : State) : exec .nop s = .next s := rfl
@[simp] theorem exec_adv (s : State) : exec .adv s = .next (s.writeLfsr (advance Config.lfsrMask s.lfsr)) := rfl
@[simp] theorem exec_rts (s : State) : exec .rts s = .next (s.writeLfsr s.start) := rfl
@[simp] theorem exec_rsd (v : Word) (s : State) : exec (.rsd v) s = .next (s.writeStart v) := rfl
@[simp] theorem exec_srq (v : Word) (s : State) : exec (.srq v) s = .next (s.writePseed v).raiseSeedp := rfl
@[simp] theorem exec_cap (s : State) : exec .cap s = .next (s.writeStart s.lfsr) := rfl
@[simp] theorem exec_etc (s : State) : exec .etc s = .next (s.writeEt 0#16) := rfl
@[simp] theorem exec_poll (s : State) : exec .poll s = .next (s.writeSnapshots s.stable s.cur) := rfl
@[simp] theorem exec_reset (s : State) : exec .reset s = .next s.resetRegisters := rfl
@[simp] theorem exec_tick1 (s : State) : exec .tick1 s = .next (s.writeEt (s.et + 1#16)) := rfl
@[simp] theorem exec_ticks (raw : Buttons) (s : State) : exec (.ticks raw) s = .next (s.sample 2 raw) := rfl

theorem exec_sap_pending {s : State} (h : s.seedp = true) :
    exec .sap s = .next (s.writeStart s.pseed).clearSeedp := by
  simp [exec, execSap, h]

theorem exec_sap_idle {s : State} (h : s.seedp = false) : exec .sap s = .next s := by
  simp [exec, execSap, h]

/-- The one next state of SAP, whatever the flag. -/
theorem exec_sap (s : State) :
    exec .sap s = .next { s with start := if s.seedp then s.pseed else s.start, seedp := false } := by
  cases h : s.seedp
  · rw [exec_sap_idle h, Host.Outcome.next.injEq]
    cases s
    simp_all
  · rw [exec_sap_pending h]
    rfl

/-- The next state of every operation, one line each. -/
def execState : Instr → State → State
  | .nop, s => s
  | .adv, s => s.writeLfsr (advance Config.lfsrMask s.lfsr)
  | .rts, s => s.writeLfsr s.start
  | .rsd v, s => s.writeStart v
  | .srq v, s => (s.writePseed v).raiseSeedp
  | .sap, s => { s with start := if s.seedp then s.pseed else s.start, seedp := false }
  | .cap, s => s.writeStart s.lfsr
  | .etc, s => s.writeEt 0#16
  | .poll, s => s.writeSnapshots s.stable s.cur
  | .reset, s => s.resetRegisters
  | .tick1, s => s.writeEt (s.et + 1#16)
  | .ticks raw, s => s.sample 2 raw

/-- Every operation answers a next state. -/
theorem exec_eq_next (i : Instr) (s : State) : exec i s = .next (execState i s) := by
  cases i with
  | sap => exact exec_sap s
  | nop | adv | rts | rsd v | srq v | cap | etc | poll | reset | tick1 | ticks raw => rfl

/-! ## One cycle -/

@[simp] theorem runEvents_nil (s : State) : runEvents [] s = .next s := rfl

theorem runEvents_cons (i : Instr) (is : List Instr) (s : State) :
    runEvents (i :: is) s = runEvents is (execState i s) := by
  rw [runEvents, exec_eq_next]

/-- A list of operations answers the state after the last of them. -/
theorem runEvents_eq_next (is : List Instr) (s : State) :
    runEvents is s = .next (is.foldl (fun t i => execState i t) s) := by
  induction is generalizing s with
  | nil => rfl
  | cons i is ih => rw [runEvents_cons, ih, List.foldl_cons]

/-- One operation as a list. -/
theorem runEvents_singleton (i : Instr) (s : State) : runEvents [i] s = exec i s := by
  rw [runEvents_cons, runEvents_nil, exec_eq_next]

theorem runEvents_append (is js : List Instr) (s : State) :
    runEvents (is ++ js) s = runEvents js (is.foldl (fun t i => execState i t) s) := by
  rw [runEvents_eq_next, runEvents_eq_next, List.foldl_append]

/-! ## One step -/

/-- The state after the step. -/
def stepState (s : State) : State := (decodeCycle s.inputWord).foldl (fun t i => execState i t) s.nextCycle

/-- What a step can do: run the operations of its input word on the state with the ports moved on. -/
theorem step_eq_next (s : State) : step s = .next (stepState s) := runEvents_eq_next _ _

theorem step_eq_runEvents (s : State) : step s = runEvents (decodeCycle s.inputWord) s.nextCycle := rfl

theorem step_driveInput (w : InputWord) (s : State) :
    step (s.driveInput w) = runEvents (decodeCycle w) s.nextCycle := rfl

/-! ## Runs -/

theorem runInputs_nil (s : State) : runInputs [] s = .next { s with inputs := [] } := rfl

/-- Listing the inputs with the first word at the head and running one step leaves the rest listed. -/
theorem step_listed (w : InputWord) (ws : List InputWord) (s : State) :
    step { s with inputs := w :: ws } =
      .next ((decodeCycle w).foldl (fun t i => execState i t) { s with inputs := ws, cycle := s.cycle + 1 }) :=
  runEvents_eq_next _ _

/-- No operation touches what the outside world drives. -/
@[simp] theorem execState_inputs (i : Instr) (s : State) : (execState i s).inputs = s.inputs := by cases i <;> rfl

@[simp] theorem execState_cycle (i : Instr) (s : State) : (execState i s).cycle = s.cycle := by cases i <;> rfl

theorem foldl_execState_inputs (is : List Instr) (s : State) :
    (is.foldl (fun t i => execState i t) s).inputs = s.inputs := by
  induction is generalizing s with
  | nil => rfl
  | cons i is ih => rw [List.foldl_cons, ih, execState_inputs]

theorem foldl_execState_cycle (is : List Instr) (s : State) :
    (is.foldl (fun t i => execState i t) s).cycle = s.cycle := by
  induction is generalizing s with
  | nil => rfl
  | cons i is ih => rw [List.foldl_cons, ih, execState_cycle]

/-- The state after one cycle of a run whose next input word is given, with nothing listed after it. -/
def cycleState (w : InputWord) (s : State) : State :=
  (decodeCycle w).foldl (fun t i => execState i t) { s with inputs := [], cycle := s.cycle + 1 }

/-- Operations act on the registers alone, so what is listed for the coming cycles can be set before or after. -/
theorem execState_withInputs (i : Instr) (s : State) (ws : List InputWord) :
    execState i { s with inputs := ws } = { execState i s with inputs := ws } := by cases i <;> rfl

theorem foldl_execState_withInputs (is : List Instr) (s : State) (ws : List InputWord) :
    is.foldl (fun t i => execState i t) { s with inputs := ws } =
      { is.foldl (fun t i => execState i t) s with inputs := ws } := by
  induction is generalizing s with
  | nil => rfl
  | cons i is ih => rw [List.foldl_cons, execState_withInputs, ih, List.foldl_cons]

/-- One more step of the host's run. -/
theorem core_run_succ {k : Nat} {s t : State} (h : step s = .next t) :
    Host.Core.run Sys2Proof.core (k + 1) s = Host.Core.run Sys2Proof.core k t := by
  have hs : Sys2Proof.core.step s = .next t := h
  have hr := Host.Core.run.eq_2 Sys2Proof.core s k
  rw [hr, hs]

/-- A run is its first cycle and then the rest of it. -/
theorem runInputs_cons (w : InputWord) (ws : List InputWord) (s : State) :
    runInputs (w :: ws) s = runInputs ws (cycleState w s) := by
  have h := foldl_execState_withInputs (decodeCycle w) { s with inputs := [], cycle := s.cycle + 1 } ws
  exact (core_run_succ (step_listed w ws s)).trans (congrArg (Host.Core.run Sys2Proof.core ws.length) h)

/-- A run answers the state after its last cycle. -/
theorem runInputs_eq_next (ws : List InputWord) (s : State) :
    runInputs ws s = .next { ws.foldl (fun t w => cycleState w t) s with inputs := [] } := by
  induction ws generalizing s with
  | nil => rfl
  | cons w ws ih => rw [runInputs_cons, ih, List.foldl_cons]

/-- A run over two lists of inputs is the first run and then the second. -/
theorem runInputs_append (ws vs : List InputWord) (s : State) :
    runInputs (ws ++ vs) s = runInputs vs (ws.foldl (fun t w => cycleState w t) s) := by
  rw [runInputs_eq_next, runInputs_eq_next, List.foldl_append]

end Sys2Proof.Machine
end

