-- ==== Sys2Proof/Tests/Slice0.lean ====
section
/-! SUPPORT. The model's own tests: expected results are the vectors of spec/95_test_vectors.md (V<n>) or are worked out
from the rule named; below them the witnesses, one for every statement with hypotheses. -/

namespace Sys2Proof.Tests

open Sys2Proof Sys2Proof.Machine

/-! ## WellFormed refuses an ill-formed term, one for each check -/

theorem test_wf_refuses_two_commands : wellFormedCycle [.adv, .etc] = false := by decide
theorem test_wf_refuses_two_ticks : wellFormedCycle [.tick1, .tick1] = false := by decide
theorem test_wf_refuses_two_samples : wellFormedCycle [.ticks 0b1111#4, .ticks 0b0000#4] = false := by decide
theorem test_wf_refuses_sample_before_command : wellFormedCycle [.ticks 0b1111#4, .poll] = false := by decide
theorem test_wf_refuses_command_before_tick : wellFormedCycle [.etc, .tick1] = false := by decide
theorem test_wf_refuses_reset_with_another : wellFormedCycle [.reset, .adv] = false := by decide
theorem test_wf_accepts_all_groups : wellFormedCycle [.tick1, .poll, .ticks 0b1010#4] = true := by decide
theorem test_wf_trace_refuses_event_as_command : (TraceLine.mk false false none (.command .tick1)).wf = false := by decide
theorem test_wf_trace_refuses_legal_opcode_as_ill : (TraceLine.mk false false none (.ill 0x1#4)).wf = false := by decide

/-! ## Decoding: every operation from the word the spec writes (V20 to V51, P2, P3; R43, R46, R50, R51) -/

theorem test_decode_nop : decode 0x01000000000 = .ok .nop := rfl
theorem test_decode_idle : decode 0x00000000000 = .ok .nop := rfl
theorem test_decode_adv : decode 0x01100000000 = .ok .adv := rfl
theorem test_decode_rts : decode 0x01200000000 = .ok .rts := rfl
theorem test_decode_rsd : decode 0x013DEADBEEF = .ok (.rsd 0xDEADBEEF#32) := rfl
theorem test_decode_srq : decode 0x014CAFEF00D = .ok (.srq 0xCAFEF00D#32) := rfl
theorem test_decode_sap : decode 0x01500000000 = .ok .sap := rfl
theorem test_decode_cap : decode 0x01600000000 = .ok .cap := rfl
theorem test_decode_etc : decode 0x01800000000 = .ok .etc := rfl
theorem test_decode_poll : decode 0x01900000000 = .ok .poll := rfl
theorem test_decode_reset : decode 0x80000000000 = .ok .reset := rfl
theorem test_decode_tick1 : decode 0x40000000000 = .ok .tick1 := rfl
theorem test_decode_ticks : decode 0x36000000000 = .ok (.ticks 0b1011#4) := rfl
theorem test_decode_reserved_refused : decode 0x01F00000000 = .error (.reservedCommand 0xF#4) := rfl
theorem test_decode_several_refused : decode 0x41800000000 = .error .severalEvents := rfl
theorem test_decode_too_long_refused : decode 0x100000000000 = .error .notAnInputWord := rfl

/-- P3 cycle 14: `TS=1010 POLL`. -/
theorem test_decode_cycle : decodeCycle 0x35900000000#44 = [.poll, .ticks 0b1010#4] := rfl

theorem test_encode_rsd : encode (.rsd 0xDEADBEEF#32) = 0x013DEADBEEF#44 := by decide
theorem test_encode_ticks : encode (.ticks 0b1011#4) = 0x36000000000#44 := by decide

/-- P3 cycle 14, `TS=1010 POLL`, and P2 cycle 22, `T1 ILL F`, as trace lines (R53). -/
theorem test_trace_line_words :
    (TraceLine.mk false false (some 0b1010#4) (.command .poll)).word = 0x35900000000#44 ∧
      (TraceLine.mk false true none (.ill 0xF#4)).word = 0x41F00000000#44 := by decide

/-! ## One step -/

/-- A state with a concrete value in every register: those of reset but for the generator. -/
def calm : State where
  lfsr := 0x02468ACF#32
  start := 0x12345678#32
  pseed := 0x00000000#32
  seedp := false
  et := 300#16
  stable := 0b1111#4
  cnt0 := 0b0000#4
  cnt1 := 0b0000#4
  cur := 0b1111#4
  prev := 0b1111#4
  inputs := []
  cycle := 0

/-- What one step with the given input word shows of the next state. -/
def look {α : Type} (w : InputWord) (f : State → α) (s : State) : Option α :=
  match step (s.driveInput w) with
  | .next t => some (f t)
  | .fault _ => none
  | .refused _ => none

/-- V3: the digit after ADV is bits 2 and 1 of the old state when bit 0 is 0. -/
theorem test_adv_shift :
    look 0x01100000000#44 (fun t => (t.lfsr, t.outputs.digit)) { calm with lfsr := 4#32 } = some (2#32, 2#2) := by decide

/-- V7: the shift is logical. -/
theorem test_adv_logical :
    look 0x01100000000#44 (fun t => t.lfsr) { calm with lfsr := 0x80000000#32 } = some 0x40000000#32 := by decide

/-- V6, V9, V11 and step 4 of 2.2: the transition under the example mask. -/
theorem test_advance_example_mask :
    advance 0xE2023CAB#32 0x00000003#32 = 0xE2023CAA#32 ∧ advance 0xE2023CAB#32 0xFFFFFFFF#32 = 0x9DFDC354#32 ∧
      advance 0xE2023CAB#32 0xE2023CAB#32 = 0x930322FE#32 ∧ advance 0xE2023CAB#32 0x02468ACF#32 = 0xE32179CC#32 := by
  decide

/-- V22: RTS does not apply a pending seed. -/
theorem test_rts_leaves_pending_seed :
    look 0x01200000000#44 (fun t => (t.lfsr, t.start, t.pseed, t.seedp))
      { calm with pseed := 0xCAFEF00D#32, seedp := true } =
        some (0x12345678#32, 0x12345678#32, 0xCAFEF00D#32, true) := by decide

/-- V23. -/
theorem test_rsd_start_only :
    look 0x013DEADBEEF#44 (fun t => (t.lfsr, t.start)) { calm with lfsr := 0x091A2B3C#32 } =
      some (0x091A2B3C#32, 0xDEADBEEF#32) := by decide

/-- V26: a second request overwrites the first. -/
theorem test_srq_overwrites :
    look 0x01400000008#44 (fun t => (t.start, t.pseed, t.seedp)) { calm with pseed := 0xCAFEF00D#32, seedp := true } =
      some (0x12345678#32, 0x00000008#32, true) := by decide

/-- V27: START takes PSEED, the flag clears, LFSR and PSEED stay. -/
theorem test_sap_applies :
    look 0x01500000000#44 (fun t => (t.lfsr, t.start, t.pseed, t.seedp))
      { calm with lfsr := 0x091A2B3C#32, pseed := 0xCAFEF00D#32, seedp := true } =
        some (0x091A2B3C#32, 0xCAFEF00D#32, 0xCAFEF00D#32, false) := by decide

/-- V29: the reset value of PSEED never reaches START. -/
theorem test_sap_nothing_pending :
    look 0x01500000000#44 (fun t => (t.lfsr, t.start, t.pseed, t.seedp)) calm =
      some (0x02468ACF#32, 0x12345678#32, 0#32, false) := by decide

/-- V30. -/
theorem test_cap_copies :
    look 0x01600000000#44 (fun t => (t.lfsr, t.start)) calm = some (0x02468ACF#32, 0x02468ACF#32) := by decide

/-- V32 and V33: neither an explicit NOP nor no command changes a register. -/
theorem test_nop_unchanged :
    look 0x01000000000#44 (fun t => { t with cycle := 0 }) calm = some calm ∧
      look 0x00000000000#44 (fun t => { t with cycle := 0 }) calm = some calm := by decide

/-- V45 and V47: clear, and clear beats tick. -/
theorem test_etc_clears :
    look 0x01800000000#44 (fun t => t.et) calm = some 0#16 ∧
      look 0x41800000000#44 (fun t => t.et) calm = some 0#16 := by decide

/-- V43: ET wraps. -/
theorem test_tick1_wraps : look 0x40000000000#44 (fun t => t.et) { calm with et := 0xFFFF#16 } = some 0#16 := by decide

/-- V49: a tick beside a command; and V44: no strobe, no count. -/
theorem test_tick1_beside_command :
    look 0x41100000000#44 (fun t => t.et) calm = some 301#16 ∧ look 0x00000000000#44 (fun t => t.et) calm = some 300#16 := by
  decide

/-- V59: two buttons commit, one starts counting, one is idle. -/
theorem test_ticks_four_buttons :
    look 0x30000000000#44 (fun t => (t.stable, t.cnt0, t.cnt1)) { calm with cnt0 := 0b0101#4 } =
      some (0b1010#4, 0b0010#4, 0b0000#4) := by decide

/-- V60: commits in opposite directions in one tick; V62b: no strobe, the count is held. -/
theorem test_ticks_both_directions :
    look 0x2A000000000#44 (fun t => (t.stable, t.cnt0, t.cnt1)) { calm with stable := 0b0110#4, cnt0 := 0b0011#4 } =
        some (0b0101#4, 0b0000#4, 0b0000#4) ∧
      look 0x16000000000#44 (fun t => (t.stable, t.cnt0, t.cnt1)) { calm with cnt0 := 0b0100#4 } =
        some (0b1111#4, 0b0100#4, 0b0000#4) := by decide

/-- Ticks 2 and 3 of the run of 2.5 with the threshold 3. -/
theorem test_sample_threshold_three :
    (calm.sample 3 0b1110#4).stable = 0b1111#4 ∧
      ((calm.sample 3 0b1110#4).sample 3 0b1110#4).cnt1 = 0b0001#4 ∧
      (((calm.sample 3 0b1110#4).sample 3 0b1110#4).sample 3 0b1110#4).stable = 0b1110#4 := by decide

/-- V69: one release and one press between two polls. -/
theorem test_poll_edges :
    look 0x01900000000#44 (fun t => (t.outputs.press, t.outputs.release, t.outputs.pressAny, t.outputs.pressIdx))
      { calm with stable := 0b1101#4, cur := 0b1110#4, prev := 0b1110#4 } =
        some (0b0010#4, 0b0001#4, true, 1#2) := by decide

/-- V71: POLL reads STABLE as it was before the commit of its own cycle. -/
theorem test_poll_with_commit :
    look 0x3F900000000#44 (fun t => (t.cur, t.prev, t.stable)) { calm with stable := 0b1110#4, cnt0 := 0b0001#4 } =
      some (0b1110#4, 0b1111#4, 0b1111#4) := by decide

/-- P2 cycle 23, `RST ADV`: reset overrides the command. -/
theorem test_reset_overrides :
    look 0x81100000000#44 (fun t => (t.pseed, t.seedp, t.et, t.stable, t.cur))
      { calm with pseed := 8#32, seedp := true, stable := 0b0000#4, cur := 0b0000#4 } =
        some (0#32, false, 0#16, 0b1111#4, 0b1111#4) := by decide

/-- P2 cycle 22, `T1 ILL F`: no register of the command group changes, the tick counts, `cmd_illegal` is 1. -/
theorem test_reserved_opcode :
    look 0x41F00000000#44 (fun t => { t with et := 300#16, cycle := 0 }) calm = some calm ∧
      look 0x41F00000000#44 (fun t => t.et) calm = some 301#16 ∧
      (calm.driveInput 0x41F00000000#44).cmdIllegal = true := by decide

/-- withFetchWord places the word that the next step runs (V25). -/
theorem test_with_fetch_word :
    (calm.withFetchWord 48 0x014CAFEF00D).inputWord = 0x014CAFEF00D#44 ∧
      (calm.withFetchWord 44 0x80000000000).inputWord = 0x80000000000#44 := by decide

/-! ## Witnesses: for every statement with hypotheses, a concrete case that meets all of them -/

/-- The state in which the given input word is on the ports. -/
def calmWith (w : InputWord) : State := calm.driveInput w

theorem witness_InstructionRoundTrip :
    Instr.wf (.rsd 0xFFFFFFFF#32) = true ∧ Instr.wf (.ticks 0b1111#4) = true ∧ Instr.wf .reset = true := by decide

theorem witness_CycleRoundTrip :
    wellFormedCycle [.reset] = true ∧ wellFormedCycle [] = true ∧
      wellFormedCycle [.tick1, .srq 0xFFFFFFFF#32, .ticks 0b1111#4] = true := by decide

theorem witness_DecoderAgreesWithOpcodeTable :
    Row.mk "RSD" 0x01300000000#44 0x81F00000000#44 ∈ opcodeTable ∧
      Row.mk "TICKS" 0x20000000000#44 0xA0000000000#44 ∈ opcodeTable := by decide

theorem witness_ResetDecodesAlone :
    BitVec.getLsbD 0xFFFFFFFFFFF#44 43 = true ∧ (calmWith 0x80000000000#44).inputWord.getLsbD 43 = true ∧
      Row.mk "ADV" 0x01100000000#44 0x81F00000000#44 ∈ opcodeTable ∧ "ADV" ≠ "RESET" := by decide

theorem witness_OperandsAreWholeOrIgnored :
    CommandWord 0x3#4 (calmWith 0x013DEADBEEF#44).inputWord ∧ CommandWord 0x4#4 (calmWith 0x61400000000#44).inputWord ∧
      (0x0#4 ∈ [0x0#4, 0x1#4, 0x2#4, 0x5#4, 0x6#4, 0x8#4, 0x9#4] ∧
        CommandWord 0x0#4 (calmWith 0x010FFFFFFFF#44).inputWord) ∧
      (0x9#4 ∈ [0x0#4, 0x1#4, 0x2#4, 0x5#4, 0x6#4, 0x8#4, 0x9#4] ∧
        CommandWord 0x9#4 (calmWith 0x019FFFFFFFF#44).inputWord) := by
  unfold CommandWord
  decide

theorem witness_NoCommandActsAsNop :
    (unpack (calmWith 0x60FFFFFFFFF#44).inputWord).cmdValid = false ∧
      (unpack (calmWith 0x80000000000#44).inputWord).cmdValid = false := by decide

theorem witness_ReservedOpcodeChangesNothing :
    (0x7#4 ∈ [0x7#4, 0xA#4, 0xB#4, 0xC#4, 0xD#4, 0xE#4, 0xF#4] ∧
        CommandWord 0x7#4 (calmWith 0x01700000000#44).inputWord) ∧
      (0xF#4 ∈ [0x7#4, 0xA#4, 0xB#4, 0xC#4, 0xD#4, 0xE#4, 0xF#4] ∧
        CommandWord 0xF#4 (calmWith 0x41F00000000#44).inputWord) := by
  unfold CommandWord
  decide

theorem witness_CmdIllegalReportsReservedOpcodes : (calmWith 0x61A00000000#44).cmdIllegal = true := by decide

theorem witness_StepRunsTheDecodedInstruction :
    decodeWord (calmWith 0x013DEADBEEF#44).inputWord = .ok (.rsd 0xDEADBEEF#32) ∧
      decodeWord (calmWith 0x00000000000#44).inputWord = .ok .nop ∧
      decodeTableWord 48 0x013DEADBEEF = some (.rsd 0xDEADBEEF#32) ∧
      decodeTableWord 44 0xFFFFFFFFFFF = some .reset := ⟨rfl, rfl, rfl, rfl⟩

theorem witness_StepIsTotalAndDeterministic :
    SameRegisters (calmWith 0x01200000000#44) { calmWith 0x01200000000#44 with cycle := 7 } ∧
      (calmWith 0x01200000000#44).inputWord = ({ calmWith 0x01200000000#44 with cycle := 7 } : State).inputWord ∧
      step (calmWith 0x01200000000#44) = .next { calm with lfsr := 0x12345678#32, cycle := 1 } ∧
      step { calmWith 0x01200000000#44 with cycle := 7 } = .next { calm with lfsr := 0x12345678#32, cycle := 8 } :=
  ⟨rfl, rfl, rfl, rfl⟩

theorem witness_OutputsAreMooreExceptCmdIllegal :
    (unpack (calmWith 0x01700000000#44).inputWord).rst = (unpack (calmWith 0x7F712345678#44).inputWord).rst ∧
      (unpack (calmWith 0x01700000000#44).inputWord).cmdValid = (unpack (calmWith 0x7F712345678#44).inputWord).cmdValid ∧
      (unpack (calmWith 0x01700000000#44).inputWord).cmdOp = (unpack (calmWith 0x7F712345678#44).inputWord).cmdOp ∧
      SameRegisters calm (calmWith 0x7F712345678#44) := ⟨by decide, by decide, by decide, rfl⟩

theorem witness_StepsTakeOneWordInOrder :
    step (calmWith 0x01200000000#44) = .next { calm with lfsr := 0x12345678#32, cycle := 1 } ∧
      runInputs [0x01200000000#44] calm = .next { calm with lfsr := 0x12345678#32, cycle := 1 } ∧
      runInputs [0x41800000000#44, 0x01500000000#44] { calm with lfsr := 0x12345678#32, cycle := 1 } =
        .next { calm with lfsr := 0x12345678#32, et := 0#16, cycle := 3 } := ⟨rfl, rfl, rfl⟩

/-- A cycle in which every group fires, ETC against TICK1 among them, and one in which none does. -/
theorem witness_GroupsActIndependently :
    (unpack (calmWith 0x77800000000#44).inputWord).rst = false ∧ CommandWord 0x8#4 (calmWith 0x77800000000#44).inputWord ∧
      (unpack (calmWith 0x00000000000#44).inputWord).rst = false ∧
      ¬ CommandWord 0x8#4 (calmWith 0x00000000000#44).inputWord := by
  unfold CommandWord
  decide

theorem witness_ResetOverridesEverything : (unpack (calmWith 0x81100000000#44).inputWord).rst = true := by decide

theorem witness_HeldResetActsAsOneReset :
    (unpack (calmWith 0x80000000000#44).inputWord).rst = true ∧
      [0x80000000000#44, 0xC1100000000#44] ≠ ([] : List InputWord) ∧
      ∀ w ∈ [0x80000000000#44, 0xC1100000000#44], (unpack w).rst = true := by
  refine ⟨by decide, by decide, ?_⟩
  intro w hw
  simp only [List.mem_cons, List.not_mem_nil, or_false] at hw
  rcases hw with rfl | rfl <;> decide

theorem witness_NopKeepsEveryRegister :
    ((unpack (calmWith 0x61000000000#44).inputWord).rst = false ∧
        CommandWord 0x0#4 (calmWith 0x61000000000#44).inputWord) ∧
      ((unpack (calmWith 0x40F00000000#44).inputWord).rst = false ∧
        (unpack (calmWith 0x40F00000000#44).inputWord).cmdValid = false) := by
  unfold CommandWord
  decide

/-- Each corner of ADV, and ADV as a command of a cycle. -/
theorem witness_AdvShiftsAndXorsTheMask :
    CommandWord 0x1#4 (calmWith 0x01100000000#44).inputWord ∧
      exec .adv { calm with lfsr := 0#32 } = .next { calm with lfsr := 0#32 } ∧
      exec .adv { calm with lfsr := 1#32 } = .next { calm with lfsr := advance Config.lfsrMask 1#32 } ∧
      exec .adv { calm with lfsr := 4#32 } = .next { calm with lfsr := 2#32 } := by
  refine ⟨?_, rfl, rfl, rfl⟩
  unfold CommandWord
  decide

theorem witness_DigitOfAnAdvanceFromTheOldState :
    exec .adv { calm with lfsr := 4#32 } = .next { calm with lfsr := 2#32 } := rfl

/-- A word without ADV, RTS and reset that fires all three groups; ADV, RTS and RESET themselves. -/
theorem witness_DigitStaysUntilLfsrIsWritten :
    (∀ w ∈ [0x7F4CAFEF00D#44, 0x00000000000#44],
        carries .adv w = false ∧ carries .rts w = false ∧ carries .reset w = false) ∧
      exec .adv { calm with lfsr := 4#32 } = .next { calm with lfsr := 2#32 } ∧
      exec .rts calm = .next { calm with lfsr := 0x12345678#32 } ∧
      exec .reset calm = .next State.reset := by
  refine ⟨?_, rfl, rfl, rfl⟩
  intro w hw
  simp only [List.mem_cons, List.not_mem_nil, or_false] at hw
  rcases hw with rfl | rfl <;> decide

theorem witness_RtsReturnsToStart :
    CommandWord 0x2#4 (calmWith 0x61200000000#44).inputWord ∧
      exec .rts calm = .next { calm with lfsr := 0x12345678#32 } := ⟨by unfold CommandWord; decide, rfl⟩

theorem witness_RsdOverwritesStart :
    CommandWord 0x3#4 (calmWith 0x01300000000#44).inputWord ∧
      exec (.rsd 0x00000000#32) calm = .next { calm with start := 0#32 } ∧
      exec .rts { calm with start := 0#32 } = .next { calm with start := 0#32, lfsr := 0#32 } :=
  ⟨by unfold CommandWord; decide, rfl, rfl⟩

theorem witness_SrqLeavesASeed :
    CommandWord 0x4#4 (calmWith 0x014CAFEF00D#44).inputWord ∧
      exec (.srq 8#32) calm = .next { calm with pseed := 8#32, seedp := true } := ⟨by unfold CommandWord; decide, rfl⟩

/-- Both values of the flag. -/
theorem witness_SapAppliesAPendingSeed :
    CommandWord 0x5#4 (calmWith 0x01500000000#44).inputWord ∧ ({ calm with seedp := true } : State).seedp = true ∧
      calm.seedp = false ∧ exec .sap { calm with seedp := true } = .next { calm with start := 0#32 } := by
  refine ⟨?_, rfl, rfl, rfl⟩
  unfold CommandWord
  decide

theorem witness_CapCapturesTheState :
    CommandWord 0x6#4 (calmWith 0x01600000000#44).inputWord ∧
      exec .cap calm = .next { calm with start := 0x02468ACF#32 } ∧
      exec .rts { calm with start := 0x02468ACF#32 } = .next { calm with start := 0x02468ACF#32 } := by
  refine ⟨?_, rfl, rfl⟩
  unfold CommandWord
  decide

theorem witness_IdempotentCommands :
    Instr.mnemonic .etc ∈ ["RTS", "RSD", "SRQ", "CAP", "ETC", "SAP"] ∧
      exec .etc calm = .next { calm with et := 0#16 } := ⟨by decide, rfl⟩

theorem witness_AdvanceIsBijectiveExactlyWithTopMaskBit :
    BitVec.getLsbD 0x62023CAB#32 31 = false ∧ BitVec.getLsbD 0x80000000#32 31 = true ∧
      BitVec.getLsbD 0x00000002#32 0 = false := by decide

theorem witness_NonZeroStateNeverDiesOut :
    BitVec.getLsbD 0xE2023CAB#32 31 = true ∧ 0x00000001#32 ≠ 0#32 := by decide

/-- ADV twice with a tick, a poll, a seed request and a sampling tick between; then a write of START too. -/
theorem witness_ReplayIsDeterministic :
    (∀ w ∈ [0x01100000000#44, 0x77900000000#44, 0x01400000008#44, 0x41100000000#44],
        (carries .reset w = false ∧ carries .rts w = false) ∧
        (carriesNamed "RSD" w = false ∧ carries .sap w = false ∧ carries .cap w = false)) ∧
      (∀ w ∈ [0x01300000008#44, 0x01600000000#44], carries .reset w = false ∧ carries .rts w = false) := by
  constructor
  · intro w hw
    simp only [List.mem_cons, List.not_mem_nil, or_false] at hw
    rcases hw with rfl | rfl | rfl | rfl <;> decide
  · intro w hw
    simp only [List.mem_cons, List.not_mem_nil, or_false] at hw
    rcases hw with rfl | rfl <;> decide

theorem witness_ZeroStateStaysZero :
    ({ calm with lfsr := 0#32, start := 0#32 } : State).lfsr = 0#32 ∧
      ({ calm with lfsr := 0#32, start := 0#32 } : State).start = 0#32 ∧
      ({ calm with lfsr := 0#32, start := 0#32 } : State).seedp = false ∧
      (∀ w ∈ [0x01100000000#44, 0x01500000000#44, 0x01200000000#44, 0x01600000000#44],
        carries .reset w = false ∧ carriesNamed "RSD" w = false ∧ carriesNamed "SRQ" w = false) := by
  refine ⟨rfl, rfl, rfl, ?_⟩
  intro w hw
  simp only [List.mem_cons, List.not_mem_nil, or_false] at hw
  rcases hw with rfl | rfl | rfl | rfl <;> decide

theorem witness_SeedsTakeEffectLater :
    Instr.mnemonic (.rsd 8#32) ∈ ["RSD", "CAP", "SAP", "SRQ"] ∧
      exec (.rsd 8#32) calm = .next { calm with start := 8#32 } ∧
      exec (.srq 8#32) calm = .next { calm with pseed := 8#32, seedp := true } := ⟨by decide, rfl, rfl⟩

/-- With and without the strobe, and ET at its largest value. -/
theorem witness_Tick1IncrementsElapsedTime :
    ((unpack (calmWith 0x41100000000#44).inputWord).rst = false ∧
        ¬ CommandWord 0x8#4 (calmWith 0x41100000000#44).inputWord ∧
        (unpack (calmWith 0x41100000000#44).inputWord).tick1ms = true) ∧
      ((unpack (calmWith 0x00800000000#44).inputWord).rst = false ∧
        ¬ CommandWord 0x8#4 (calmWith 0x00800000000#44).inputWord ∧
        (unpack (calmWith 0x00800000000#44).inputWord).tick1ms = false) ∧
      exec .tick1 { calm with et := 0xFFFF#16 } = .next { calm with et := 0#16 } := by
  refine ⟨?_, ?_, rfl⟩
  all_goals unfold CommandWord; decide

/-- ETC with the strobe in its cycle, and without. -/
theorem witness_EtcClearsAndBeatsTick1 :
    CommandWord 0x8#4 (calmWith 0x41800000000#44).inputWord ∧ CommandWord 0x8#4 (calmWith 0x01800000000#44).inputWord := by
  unfold CommandWord
  decide

/-- A run of n ticks: the hypotheses hold and the count is n, up to and at 65536. -/
theorem witness_ElapsedTimeCountsTicks (n : Nat) :
    (∀ w ∈ List.replicate n (0x40000000000#44 : InputWord), carries .reset w = false ∧ carries .etc w = false) ∧
      countCarrying .tick1 (List.replicate n 0x40000000000#44) = n := by
  have h : carries .reset 0x40000000000#44 = false ∧ carries .etc 0x40000000000#44 = false ∧
      carries .tick1 0x40000000000#44 = true := by decide
  refine ⟨fun w hw => ?_, ?_⟩
  · rw [List.eq_of_mem_replicate hw]
    exact ⟨h.1, h.2.1⟩
  · simp [countCarrying, List.countP_replicate, h.2.2]

/-- The threshold 65535 with 65536 ticks, the last case of the statement. -/
theorem witness_ElapsedTimeCountsTicks_wrap :
    65535 ≤ 65535 ∧ countCarrying .tick1 (List.replicate 65536 0x40000000000#44) = 65536 :=
  ⟨by decide, (witness_ElapsedTimeCountsTicks 65536).2⟩

/-- Button 1 at its first qualifying sample and button 4 at the one that commits, in one tick. -/
theorem witness_TicksCountsAndCommits :
    State.sample { calm with cnt0 := 0b1000#4 } 2 0b0110#4 = { calm with stable := 0b0111#4, cnt0 := 0b0001#4 } ∧
      (true = (BitVec.getLsbD 0b0110#4 0 ^^ BitVec.getLsbD 0b1111#4 0) ∧
        0 = 2 * (BitVec.getLsbD 0b0000#4 0).toNat + (BitVec.getLsbD 0b1000#4 0).toNat) ∧
      (true = (BitVec.getLsbD 0b0110#4 3 ^^ BitVec.getLsbD 0b1111#4 3) ∧
        1 = 2 * (BitVec.getLsbD 0b0000#4 3).toNat + (BitVec.getLsbD 0b1000#4 3).toNat ∧ 1 + 1 ≥ 2) := by decide

/-- A cycle with the strobe, one without; and two states that agree on button 1 alone. -/
theorem witness_FilterActsOnTheStrobeButtonByButton :
    ((unpack (calmWith 0x36000000000#44).inputWord).rst = false ∧
        (unpack (calmWith 0x36000000000#44).inputWord).tickSample = true) ∧
      ((unpack (calmWith 0x16000000000#44).inputWord).rst = false ∧
        (unpack (calmWith 0x16000000000#44).inputWord).tickSample = false) ∧
      (BitVec.getLsbD 0b1110#4 0 = BitVec.getLsbD 0b0000#4 0 ∧
        calm.stable.getLsbD 0 = ({ calm with stable := 0b0001#4, cnt0 := 0b1110#4 } : State).stable.getLsbD 0 ∧
        calm.cnt0.getLsbD 0 = ({ calm with stable := 0b0001#4, cnt0 := 0b1110#4 } : State).cnt0.getLsbD 0 ∧
        calm.cnt1.getLsbD 0 = ({ calm with stable := 0b0001#4, cnt0 := 0b1110#4 } : State).cnt1.getLsbD 0) ∧
      exec (.ticks 0b1110#4) calm = .next { calm with cnt0 := 0b0001#4 } ∧
      exec (.ticks 0b0000#4) { calm with stable := 0b0001#4, cnt0 := 0b1110#4 } =
        .next { calm with stable := 0b0001#4, cnt0 := 0b0001#4 } := by
  exact ⟨by decide, by decide, by decide, rfl, rfl⟩

theorem witness_FilterSeesOnlySamples :
    ∀ w ∈ [0x36000000000#44, 0x41800000000#44, 0x1F900000000#44, 0x36000000000#44], carries .reset w = false := by
  intro w hw
  simp only [List.mem_cons, List.not_mem_nil, or_false] at hw
  rcases hw with rfl | rfl | rfl | rfl <;> decide

/-- A line of button 1 that alternates at every sample. -/
theorem witness_NoTwoNeighboursNoCommit :
    laneCount calm.cnt0 calm.cnt1 0 = 0 ∧
      [0b1110#4, 0b1111#4, 0b1110#4, 0b1111#4].IsChain
        (fun a b => a.getLsbD 0 = calm.stable.getLsbD 0 ∨ b.getLsbD 0 = calm.stable.getLsbD 0) := by decide

/-- Button 1 and button 4. -/
theorem witness_TwoQualifyingSamplesCommit :
    (laneCount calm.cnt0 calm.cnt1 0 = 0 ∧ BitVec.getLsbD 0b1110#4 0 ≠ calm.stable.getLsbD 0 ∧
        BitVec.getLsbD 0b0110#4 0 ≠ calm.stable.getLsbD 0) ∧
      (laneCount calm.cnt0 calm.cnt1 3 = 0 ∧ BitVec.getLsbD 0b0111#4 3 ≠ calm.stable.getLsbD 3 ∧
        BitVec.getLsbD 0b0110#4 3 ≠ calm.stable.getLsbD 3) := by decide

/-- A step that commits, from the largest legal counts. -/
theorem witness_StepKeepsCountsLegal :
    CountsLegal { calmWith 0x20000000000#44 with cnt0 := 0b1111#4 } ∧
      step { calmWith 0x20000000000#44 with cnt0 := 0b1111#4 } = .next { calm with stable := 0b0000#4, cycle := 1 } := by
  refine ⟨?_, rfl⟩
  unfold CountsLegal
  decide

theorem witness_ButtonHeldThroughResetIsAPress :
    BitVec.getLsbD 0b0111#4 3 = false ∧ BitVec.getLsbD 0b0000#4 3 = false := by decide

theorem witness_PollTakesTheSnapshots :
    CommandWord 0x9#4 (calmWith 0x01900000000#44).inputWord ∧ CommandWord 0x9#4 (calmWith 0x3F900000000#44).inputWord := by
  unfold CommandWord
  decide

/-- The lowest and the highest index: button 1 released and button 4 pressed between the last two polls. -/
theorem witness_EdgesAreTransitions :
    (0 < 4 ∧ ({ calm with cur := 0b0111#4, prev := 0b1110#4 } : State).outputs.release.getLsbD 0 = true) ∧
      (3 < 4 ∧ ({ calm with cur := 0b0111#4, prev := 0b1110#4 } : State).outputs.press.getLsbD 3 = true) := by decide

/-- A state with a press edge of button 3 alone, and one without a press edge. -/
theorem witness_PressIndexIsTheLowest :
    ({ calm with cur := 0b1011#4 } : State).outputs.pressAny = true ∧ calm.outputs.pressAny = false ∧
      exec .poll { calm with stable := 0b1011#4, cur := 0b1011#4 } =
        .next { calm with stable := 0b1011#4, cur := 0b1011#4, prev := 0b1011#4 } :=
  ⟨by decide, by decide, rfl⟩

theorem witness_EdgesStayUntilTheNextPoll :
    ∀ w ∈ [0x36000000000#44, 0x41800000000#44, 0x01100000000#44],
      carries .reset w = false ∧ carries .poll w = false := by
  intro w hw
  simp only [List.mem_cons, List.not_mem_nil, or_false] at hw
  rcases hw with rfl | rfl | rfl <;> decide

/-- Two sampling ticks that commit button 3 between two polls. -/
theorem witness_EdgesCompareTheLastTwoPolls :
    (∀ w ∈ [0x36000000000#44, 0x36000000000#44], carries .reset w = false ∧ carries .poll w = false) ∧
      runInputs [encode .poll, 0x36000000000#44, 0x36000000000#44] calm =
        .next { calm with stable := 0b1011#4, cycle := 3 } ∧
      exec .poll { calm with stable := 0b1011#4, cycle := 3 } =
        .next { calm with stable := 0b1011#4, cur := 0b1011#4, cycle := 3 } := by
  refine ⟨?_, rfl, rfl⟩
  intro w hw
  simp only [List.mem_cons, List.not_mem_nil, or_false] at hw
  rcases hw with rfl | rfl <;> decide

/-- A writer of every register: an operation that does change it. -/
theorem witness_EveryRegisterHasItsWritersAndReaders :
    exec .rts calm = .next { calm with lfsr := 0x12345678#32 } ∧
      exec (.rsd 8#32) calm = .next { calm with start := 8#32 } ∧
      exec (.srq 8#32) calm = .next { calm with pseed := 8#32, seedp := true } ∧
      exec .sap { calm with pseed := 8#32, seedp := true } = .next { calm with pseed := 8#32, start := 8#32 } ∧
      exec .tick1 calm = .next { calm with et := 301#16 } ∧
      exec (.ticks 0b0110#4) { calm with cnt0 := 0b1000#4, cnt1 := 0b0010#4 } =
        .next { calm with stable := 0b0111#4, cnt0 := 0b0001#4 } ∧
      exec .poll { calm with stable := 0b1110#4, cur := 0b1101#4 } =
        .next { calm with stable := 0b1110#4, cur := 0b1110#4, prev := 0b1101#4 } := ⟨rfl, rfl, rfl, rfl, rfl, rfl, rfl⟩

theorem witness_SeedPendingHasThreeWriters :
    exec (.srq 8#32) calm = .next { calm with pseed := 8#32, seedp := true } ∧ exec .nop calm = .next calm := ⟨rfl, rfl⟩

theorem witness_PseedIsHiddenWhileNotPending :
    calm.seedp = false ∧
      Host.Core.run Sys2Proof.core 1 (calmWith 0x01200000000#44) =
        .next ({ calm with lfsr := 0x12345678#32, cycle := 1 } : State) := ⟨rfl, rfl⟩

end Sys2Proof.Tests
end

section
/-! PROOFS. The registers of a state without what the outside world drives, and how an operation, a cycle and a step
act on them (spec/00_scope.md R8). -/

namespace Sys2Proof.Machine

/-! ## The registers alone -/

/-- The ten registers of a state, with the model's own two fields at their reset values (log 1). -/
def State.registers (s : State) : State := { s with inputs := [], cycle := 0 }

theorem sameRegisters_iff (s t : State) : SameRegisters s t ↔ s.registers = t.registers := Iff.rfl

@[simp] theorem State.registers_nextCycle (s : State) : s.nextCycle.registers = s.registers := rfl

/-- The register outputs see the registers only (R42). -/
@[simp] theorem State.registers_outputs (s : State) : s.registers.outputs = s.outputs := rfl

/-- An operation acts on the registers alone. -/
theorem execState_registers (i : Instr) (s : State) : execState i s.registers = (execState i s).registers := by
  cases i <;> rfl

theorem foldl_execState_registers (is : List Instr) (s : State) :
    is.foldl (fun t i => execState i t) s.registers = (is.foldl (fun t i => execState i t) s).registers :=
  List.foldl_hom State.registers fun t i => execState_registers i t

/-- The registers after a step, from the registers and the input word before it (R8). -/
theorem stepState_registers (s : State) :
    (stepState s).registers = (decodeCycle s.inputWord).foldl (fun t i => execState i t) s.registers := by
  rw [stepState, ← foldl_execState_registers, State.registers_nextCycle]

/-! ## Equal registers -/

theorem SameRegisters.outputs_eq {s t : State} (h : SameRegisters s t) : s.outputs = t.outputs := by
  rw [← State.registers_outputs s, (sameRegisters_iff s t).mp h, State.registers_outputs]

theorem SameRegisters.stepState {s t : State} (h : SameRegisters s t) (hw : s.inputWord = t.inputWord) :
    SameRegisters (stepState s) (stepState t) := by
  rw [sameRegisters_iff] at h ⊢
  rw [stepState_registers, stepState_registers, h, hw]

theorem step_eq_next_iff (s t : State) : step s = .next t ↔ stepState s = t := by
  rw [step_eq_next, Host.Outcome.next.injEq]

theorem cmdIllegal_eq_of_inputWord_eq {s t : State} (hw : s.inputWord = t.inputWord) :
    s.cmdIllegal = t.cmdIllegal := by
  rw [State.cmdIllegal, State.cmdIllegal, hw]

/-- Settles O12: every step answers `stepState`, and its registers are a function of the registers and the input word
before the edge. -/
theorem stepIsTotalAndDeterministic : Obligations.StepIsTotalAndDeterministic := by
  refine ⟨fun s => ⟨stepState s, step_eq_next s⟩, ?_, fun _ _ => SameRegisters.outputs_eq,
    fun _ _ => cmdIllegal_eq_of_inputWord_eq⟩
  intro s s' t t' hregs hword hs hs'
  rw [step_eq_next_iff] at hs hs'
  subst hs hs'
  exact hregs.stepState hword

end Sys2Proof.Machine
end

section
/-! PROOFS. Who writes and who reads every register, operation by operation (spec/10_state.md R14, R21), and what reset
gives (R26, R143). A frame lemma `execState_<register>_of_not_writer` says which operations leave a register; a lemma
`execState_ignores_<register>` says that an operation which does not read a register gives every other register the
same value whatever that register holds. -/

namespace Sys2Proof.Machine

theorem exec_eq_next_iff (i : Instr) (s t : State) : exec i s = .next t ↔ execState i s = t := by
  rw [exec_eq_next, Host.Outcome.next.injEq]

/-! ## The value of SEEDP after every operation (R14) -/

theorem execState_seedp (i : Instr) (s : State) :
    (execState i s).seedp =
      if i.mnemonic = "SRQ" then true else if i.mnemonic ∈ ["SAP", "RESET"] then false else s.seedp := by
  cases i <;> simp [execState, Instr.mnemonic]

/-! ## Writers: what an operation leaves unchanged (R21) -/

section Writers

variable {i : Instr} {s : State}

theorem execState_lfsr_of_not_writer (h : i.mnemonic ∉ ["ADV", "RTS", "RESET"]) :
    (execState i s).lfsr = s.lfsr := by
  cases i with
  | adv | rts | reset => simp [Instr.mnemonic] at h
  | _ => rfl

/-- SAP writes START only where a seed is pending (R65). -/
theorem execState_start_of_not_writer (h : i.mnemonic ∉ ["RSD", "CAP", "RESET"])
    (hsap : ¬ (i.mnemonic = "SAP" ∧ s.seedp = true)) : (execState i s).start = s.start := by
  cases i with
  | rsd | cap | reset => simp [Instr.mnemonic] at h
  | sap =>
    have hidle : s.seedp ≠ true := fun hp => hsap ⟨rfl, hp⟩
    exact if_neg hidle
  | _ => rfl

theorem execState_pseed_of_not_writer (h : i.mnemonic ∉ ["SRQ", "RESET"]) : (execState i s).pseed = s.pseed := by
  cases i with
  | srq | reset => simp [Instr.mnemonic] at h
  | _ => rfl

theorem execState_seedp_of_not_writer (h : i.mnemonic ∉ ["SRQ", "SAP", "RESET"]) :
    (execState i s).seedp = s.seedp := by
  rw [List.mem_cons, not_or] at h
  obtain ⟨hsrq, hclear⟩ := h
  rw [execState_seedp, if_neg hsrq, if_neg hclear]

theorem execState_et_of_not_writer (h : i.mnemonic ∉ ["TICK1", "ETC", "RESET"]) : (execState i s).et = s.et := by
  cases i with
  | tick1 | etc | reset => simp [Instr.mnemonic] at h
  | _ => rfl

theorem execState_stable_of_not_writer (h : i.mnemonic ∉ ["TICKS", "RESET"]) :
    (execState i s).stable = s.stable := by
  cases i with
  | ticks | reset => simp [Instr.mnemonic] at h
  | _ => rfl

theorem execState_cnt0_of_not_writer (h : i.mnemonic ∉ ["TICKS", "RESET"]) : (execState i s).cnt0 = s.cnt0 := by
  cases i with
  | ticks | reset => simp [Instr.mnemonic] at h
  | _ => rfl

theorem execState_cnt1_of_not_writer (h : i.mnemonic ∉ ["TICKS", "RESET"]) : (execState i s).cnt1 = s.cnt1 := by
  cases i with
  | ticks | reset => simp [Instr.mnemonic] at h
  | _ => rfl

theorem execState_cur_of_not_writer (h : i.mnemonic ∉ ["POLL", "RESET"]) : (execState i s).cur = s.cur := by
  cases i with
  | poll | reset => simp [Instr.mnemonic] at h
  | _ => rfl

theorem execState_prev_of_not_writer (h : i.mnemonic ∉ ["POLL", "RESET"]) : (execState i s).prev = s.prev := by
  cases i with
  | poll | reset => simp [Instr.mnemonic] at h
  | _ => rfl

end Writers

/-! ## Readers: what a register cannot influence (R21)

Both sides put one fixed value in the place of the register itself, so the equations are about all the others. -/

section Readers

variable {i : Instr}

theorem execState_ignores_lfsr (h : i.mnemonic ∉ ["ADV", "CAP"]) (s : State) (v : Word) :
    { execState i { s with lfsr := v } with lfsr := 0#32 } = { execState i s with lfsr := 0#32 } := by
  cases i with
  | adv | cap => simp [Instr.mnemonic] at h
  | _ => rfl

theorem execState_ignores_start (h : i.mnemonic ≠ "RTS") (s : State) (v : Word) :
    { execState i { s with start := v } with start := 0#32 } = { execState i s with start := 0#32 } := by
  cases i with
  | rts => exact absurd rfl h
  | sap => cases hp : s.seedp <;> simp [execState, hp]
  | _ => rfl

/-- SAP reads PSEED only where a seed is pending (R65). -/
theorem execState_ignores_pseed {s : State} (h : i.mnemonic ≠ "SAP" ∨ s.seedp = false) (v : Word) :
    { execState i { s with pseed := v } with pseed := 0#32 } = { execState i s with pseed := 0#32 } := by
  cases i with
  | sap =>
    have hidle : s.seedp = false := h.resolve_left (absurd rfl)
    simp [execState, hidle]
  | _ => rfl

theorem execState_ignores_seedp (h : i.mnemonic ≠ "SAP") (s : State) (v : Bool) :
    { execState i { s with seedp := v } with seedp := false } = { execState i s with seedp := false } := by
  cases i with
  | sap => exact absurd rfl h
  | _ => rfl

theorem execState_ignores_et (h : i.mnemonic ≠ "TICK1") (s : State) (v : TickCount) :
    { execState i { s with et := v } with et := 0#16 } = { execState i s with et := 0#16 } := by
  cases i with
  | tick1 => exact absurd rfl h
  | _ => rfl

theorem execState_ignores_stable (h : i.mnemonic ∉ ["TICKS", "POLL"]) (s : State) (v : Buttons) :
    { execState i { s with stable := v } with stable := 0#4 } = { execState i s with stable := 0#4 } := by
  cases i with
  | ticks | poll => simp [Instr.mnemonic] at h
  | _ => rfl

theorem execState_ignores_counts (h : i.mnemonic ≠ "TICKS") (s : State) (v v' : Buttons) :
    { execState i { s with cnt0 := v, cnt1 := v' } with cnt0 := 0#4, cnt1 := 0#4 } =
      { execState i s with cnt0 := 0#4, cnt1 := 0#4 } := by
  cases i with
  | ticks => exact absurd rfl h
  | _ => rfl

theorem execState_ignores_cur (h : i.mnemonic ≠ "POLL") (s : State) (v : Buttons) :
    { execState i { s with cur := v } with cur := 0#4 } = { execState i s with cur := 0#4 } := by
  cases i with
  | poll => exact absurd rfl h
  | _ => rfl

/-- No operation reads PREV. -/
theorem execState_ignores_prev (i : Instr) (s : State) (v : Buttons) :
    { execState i { s with prev := v } with prev := 0#4 } = { execState i s with prev := 0#4 } := by
  cases i <;> rfl

end Readers

/-! ## Reset (R26, R143) -/

/-- In a cycle with `rst` = 1 every register is reset, whatever else its word asks for (R143). -/
theorem step_of_rst {s : State} (h : (unpack s.inputWord).rst = true) :
    step s = .next s.nextCycle.resetRegisters := by
  rw [step_eq_runEvents, decodeCycle, decodePorts_rst h, runEvents_singleton, exec_reset]

/-! ## The obligations -/

/-- Settles O55: the frame lemmas are the writers, the `ignores` lemmas the readers, and each output is by definition a
function of the registers that R41 names. -/
theorem everyRegisterHasItsWritersAndReaders : Obligations.EveryRegisterHasItsWritersAndReaders := by
  refine ⟨?writers, ?readers, ?outputs⟩
  case writers =>
    intro i s t h
    rw [exec_eq_next_iff] at h
    subst h
    have hstart (hne : (execState i s).start ≠ s.start) :
        i.mnemonic ∈ ["RSD", "CAP", "RESET"] ∨ (i.mnemonic = "SAP" ∧ s.seedp = true) := by
      by_contra hnone
      obtain ⟨hwriter, hsap⟩ := not_or.mp hnone
      exact hne (execState_start_of_not_writer hwriter hsap)
    exact ⟨not_imp_comm.mp execState_lfsr_of_not_writer, hstart, not_imp_comm.mp execState_pseed_of_not_writer,
      not_imp_comm.mp execState_seedp_of_not_writer, not_imp_comm.mp execState_et_of_not_writer,
      not_imp_comm.mp execState_stable_of_not_writer, not_imp_comm.mp execState_cnt0_of_not_writer,
      not_imp_comm.mp execState_cnt1_of_not_writer, not_imp_comm.mp execState_cur_of_not_writer,
      not_imp_comm.mp execState_prev_of_not_writer, execState_inputs i s, execState_cycle i s⟩
  case readers =>
    intro i s t h
    rw [exec_eq_next_iff] at h
    subst h
    exact ⟨fun h v => ⟨_, exec_eq_next _ _, execState_ignores_lfsr h s v⟩,
      fun h v => ⟨_, exec_eq_next _ _, execState_ignores_start h s v⟩,
      fun h v => ⟨_, exec_eq_next _ _, execState_ignores_pseed h v⟩,
      fun h v => ⟨_, exec_eq_next _ _, execState_ignores_seedp h s v⟩,
      fun h v => ⟨_, exec_eq_next _ _, execState_ignores_et h s v⟩,
      fun h v => ⟨_, exec_eq_next _ _, execState_ignores_stable h s v⟩,
      fun h v v' => ⟨_, exec_eq_next _ _, execState_ignores_counts h s v v'⟩,
      fun h v => ⟨_, exec_eq_next _ _, execState_ignores_cur h s v⟩,
      fun v => ⟨_, exec_eq_next _ _, execState_ignores_prev i s v⟩⟩
  case outputs =>
    intro s
    exact ⟨fun _ => rfl, fun _ => rfl, fun _ => rfl, fun _ => rfl, fun _ => rfl, fun _ => rfl, fun _ => rfl,
      fun _ => rfl, fun _ => ⟨_, _, _, _, rfl⟩, fun _ => ⟨_, _, _, _, rfl⟩⟩

/-- Settles O17: a cycle with `rst` = 1 is RESET alone, and RESET writes the table of R26. -/
theorem resetOverridesEverything : Obligations.ResetOverridesEverything :=
  ⟨initSeed_ne_zero, fun _ h => step_of_rst h, exec_reset⟩

/-- Settles O56: `seed_pending` shows SEEDP, whose value after every operation `execState_seedp` gives. -/
theorem seedPendingHasThreeWriters : Obligations.SeedPendingHasThreeWriters := by
  intro i s t h
  rw [exec_eq_next_iff] at h
  subst h
  exact execState_seedp i s

end Sys2Proof.Machine
end

section
/-! PROOFS. One cycle, group by group (spec/30_encoding.md R44 to R51): RESET alone, or the elapsed-time group, then the
command, if the word carries one, then the sampling group (R37). -/

namespace Sys2Proof

/-! ## The command group (R45 to R49) -/

theorem commandEvents_of_cmdValid_false {p : Ports} (h : p.cmdValid = false) : commandEvents p = [] := by
  rw [commandEvents, h]
  rfl

theorem commandEvents_of_cmdValid {p : Ports} (h : p.cmdValid = true) :
    commandEvents p = (commandOf p.cmdOp p.cmdData).toList :=
  if_pos h

/-- Only RSD and SRQ look at `cmd_data` (R47). -/
theorem commandOf_ignores_data {op : Opcode} (hrsd : op ≠ 0x3#4) (hsrq : op ≠ 0x4#4) (d d' : Word) :
    commandOf op d = commandOf op d' := by
  unfold commandOf
  split
  -- the arms of opcodes 3 and 4, the only ones that use the operand
  case h_4 h => exact absurd (BitVec.eq_of_toNat_eq h) hrsd
  case h_5 h => exact absurd (BitVec.eq_of_toNat_eq h) hsrq
  all_goals rfl

/-- `cmd_data` matters to a cycle only through the command that it selects. -/
theorem decodePorts_withData {p : Ports} {d : Word} (h : commandOf p.cmdOp d = commandOf p.cmdOp p.cmdData) :
    decodePorts { p with cmdData := d } = decodePorts p := by
  have hcommand : commandEvents { p with cmdData := d } = commandEvents p := by
    simp only [commandEvents, h]
  unfold decodePorts
  rw [hcommand]
  rfl

/-- The list of R49 and the model's test of an opcode agree. -/
theorem reservedOpcode_iff_mem (op : Opcode) :
    reservedOpcode op = true ↔ op ∈ [0x7#4, 0xA#4, 0xB#4, 0xC#4, 0xD#4, 0xE#4, 0xF#4] := by
  revert op
  decide

end Sys2Proof

namespace Sys2Proof.Machine

/-! ## The two tick groups (R51) -/

/-- What the elapsed-time group of a cycle does. -/
def elapsedState (p : Ports) (s : State) : State := if p.tick1ms then execState .tick1 s else s

/-- What the sampling group of a cycle does. -/
def samplingState (p : Ports) (s : State) : State := if p.tickSample then execState (.ticks p.btnRaw) s else s

theorem foldl_elapsedEvents (p : Ports) (s : State) :
    (elapsedEvents p).foldl (fun t i => execState i t) s = elapsedState p s := by
  unfold elapsedEvents elapsedState
  split <;> rfl

theorem foldl_samplingEvents (p : Ports) (s : State) :
    (samplingEvents p).foldl (fun t i => execState i t) s = samplingState p s := by
  unfold samplingEvents samplingState
  split <;> rfl

/-- The two groups write different registers, so together they act as one. -/
theorem samplingState_elapsedState (p : Ports) (s : State) :
    samplingState p (elapsedState p s) = withTicks p s := by
  unfold samplingState elapsedState withTicks
  cases p.tick1ms <;> cases p.tickSample <;> rfl

@[simp] theorem samplingState_start (p : Ports) (s : State) : (samplingState p s).start = s.start := by
  unfold samplingState
  split <;> rfl

@[simp] theorem samplingState_pseed (p : Ports) (s : State) : (samplingState p s).pseed = s.pseed := by
  unfold samplingState
  split <;> rfl

/-! ## The step -/

section Step

variable {s : State} {p : Ports}

/-- A step is decided by the operations of its word, so driving a word with the same ones changes nothing. -/
theorem step_driveInput_eq_step (h : decodePorts p = decodePorts (unpack s.inputWord)) :
    step (s.driveInput (pack p)) = step s := by
  rw [step_driveInput, decodeCycle_pack, h]
  rfl

theorem step_driveInput_of_rst (hrst : p.rst = true) :
    step (s.driveInput (pack p)) = .next s.nextCycle.resetRegisters := by
  refine step_of_rst (s := s.driveInput (pack p)) ?_
  rw [driveInput_inputWord, unpack_pack, hrst]

/-- The three groups in the order of R37. -/
theorem step_of_rst_false (hp : unpack s.inputWord = p) (hrst : p.rst = false) :
    step s = .next (samplingState p
      ((commandEvents p).foldl (fun t i => execState i t) (elapsedState p s.nextCycle))) := by
  rw [step_eq_next, stepState, decodeCycle, hp, decodePorts_groups hrst, List.foldl_append, List.foldl_append,
    foldl_elapsedEvents, foldl_samplingEvents]

/-- A cycle with a command: it acts between the two tick groups. -/
theorem step_of_command {i : Instr} (hp : unpack s.inputWord = p) (hrst : p.rst = false) (hvalid : p.cmdValid = true)
    (hi : commandOf p.cmdOp p.cmdData = some i) :
    step s = .next (samplingState p (execState i (elapsedState p s.nextCycle))) := by
  rw [step_of_rst_false hp hrst, commandEvents_of_cmdValid hvalid, hi]
  rfl

/-- A cycle whose command group does nothing is what the two tick groups give. -/
theorem step_of_commandEvents_nil (hp : unpack s.inputWord = p) (hrst : p.rst = false) (hnil : commandEvents p = []) :
    step s = .next (withTicks p s.nextCycle) := by
  rw [step_of_rst_false hp hrst, hnil, List.foldl_nil, samplingState_elapsedState]

/-- A cycle with NOP is what the two tick groups give (R60). -/
theorem step_of_nop (hp : unpack s.inputWord = p) (hrst : p.rst = false) (hvalid : p.cmdValid = true)
    (hop : p.cmdOp = 0x0#4) : step s = .next (withTicks p s.nextCycle) := by
  have hnop : commandOf p.cmdOp p.cmdData = some .nop := by rw [hop]; rfl
  rw [step_of_command hp hrst hvalid hnop, execState, samplingState_elapsedState]

/-- Driving NOP in the place of the command leaves the two tick groups. -/
theorem step_driveInput_nop (hrst : p.rst = false) :
    step (s.driveInput (pack { p with cmdValid := true, cmdOp := 0x0#4 })) = .next (withTicks p s.nextCycle) := by
  have hnop := step_of_nop (s := s.driveInput _)
    (unpack_pack { p with cmdValid := true, cmdOp := 0x0#4 }) hrst rfl rfl
  exact hnop

end Step

/-! ## `cmd_illegal` (R42, R121) -/

section CmdIllegal

variable {p q : Ports}

theorem cmdIllegal_of_rst (h : p.rst = true) : cmdIllegal p = false := by
  rw [cmdIllegal, h]
  rfl

theorem cmdIllegal_of_cmdValid_false (h : p.cmdValid = false) : cmdIllegal p = false := by
  rw [cmdIllegal, h, Bool.and_false, Bool.false_and]

theorem cmdIllegal_of_reserved (hrst : p.rst = false) (hvalid : p.cmdValid = true)
    (hop : reservedOpcode p.cmdOp = true) : cmdIllegal p = true := by
  rw [cmdIllegal, hrst, hvalid, hop]
  rfl

theorem cmdIllegal_congr (hrst : p.rst = q.rst) (hvalid : p.cmdValid = q.cmdValid) (hop : p.cmdOp = q.cmdOp) :
    cmdIllegal p = cmdIllegal q := by
  rw [cmdIllegal, cmdIllegal, hrst, hvalid, hop]

end CmdIllegal

/-! ## The obligations -/

/-- Settles O6: `IW[43]` is `rst`, so the word is RESET alone, and the rows of the table are checked one by one. -/
theorem resetDecodesAlone : Obligations.ResetDecodesAlone := by
  refine ⟨fun w hrst => ⟨decodePorts_rst hrst, cmdIllegal_of_rst hrst⟩, fun s hrst => ?_, by decide⟩
  exact ⟨s.nextCycle.resetRegisters, step_of_rst hrst, rfl⟩

/-- Settles O7: RSD and SRQ put the driven operand into START and PSEED, where the sampling group leaves it; no other
command's choice depends on the operand. -/
theorem operandsAreWholeOrIgnored : Obligations.OperandsAreWholeOrIgnored := by
  refine ⟨fun d => ⟨rfl, rfl⟩, ?rsd, ?srq, ?ignored, by decide⟩
  case rsd =>
    intro d s ⟨hrst, hvalid, hop⟩
    have hrsd : commandOf (unpack s.inputWord).cmdOp d = some (.rsd d) := by rw [hop]; rfl
    exact ⟨_, step_of_command (unpack_pack _) hrst hvalid hrsd, samplingState_start _ _⟩
  case srq =>
    intro d s ⟨hrst, hvalid, hop⟩
    have hsrq : commandOf (unpack s.inputWord).cmdOp d = some (.srq d) := by rw [hop]; rfl
    exact ⟨_, step_of_command (unpack_pack _) hrst hvalid hsrq, samplingState_pseed _ _⟩
  case ignored =>
    intro op d s hmem ⟨_, _, hop⟩
    have hrsd : op ≠ 0x3#4 := by rintro rfl; exact absurd hmem (by decide)
    have hsrq : op ≠ 0x4#4 := by rintro rfl; exact absurd hmem (by decide)
    rw [← hop] at hrsd hsrq
    exact step_driveInput_eq_step (decodePorts_withData (commandOf_ignores_data hrsd hsrq _ _))

/-- Settles O8: with `rst` = 1 both cycles are RESET alone; with `rst` = 0 each is what its two tick groups give. -/
theorem noCommandActsAsNop : Obligations.NoCommandActsAsNop := by
  refine ⟨fun s hvalid => ⟨cmdIllegal_of_cmdValid_false hvalid, ?_⟩, by decide, by decide⟩
  obtain hrst | hrst := Bool.eq_false_or_eq_true (unpack s.inputWord).rst
  · rw [step_of_rst hrst]
    exact Eq.symm (step_driveInput_of_rst hrst)
  · rw [step_of_commandEvents_nil rfl hrst (commandEvents_of_cmdValid_false hvalid)]
    exact (step_driveInput_nop hrst).symm

/-- Settles O9: a reserved opcode leaves the command group empty and raises `cmd_illegal`. -/
theorem reservedOpcodeChangesNothing : Obligations.ReservedOpcodeChangesNothing := by
  intro op hmem
  have hreserved : reservedOpcode op = true := (reservedOpcode_iff_mem op).mpr hmem
  have hnone (d : Word) : commandOf op d = none := (commandOf_eq_none op d).mpr hreserved
  refine ⟨hnone, fun s ⟨hrst, hvalid, hop⟩ => ?_⟩
  subst hop
  have hnil : commandEvents (unpack s.inputWord) = [] := by
    rw [commandEvents_of_cmdValid hvalid, hnone, Option.toList_none]
  exact ⟨cmdIllegal_of_reserved hrst hvalid hreserved, step_of_commandEvents_nil rfl hrst hnil⟩

/-- Settles O13: `cmd_illegal` sees three ports, the other outputs the registers, and driving a word writes none. -/
theorem outputsAreMooreExceptCmdIllegal : Obligations.OutputsAreMooreExceptCmdIllegal :=
  ⟨fun _ _ => cmdIllegal_congr, fun _ _ => SameRegisters.outputs_eq, fun _ _ => rfl⟩

end Sys2Proof.Machine
end

section
/-! PROOFS. The commands of the sequence generator in a cycle with ticks, and what a run keeps (spec/40_lfsr.md R60 to
R67). A command that neither writes nor reads the filter acts as it acts after the two tick groups, so one lemma,
`step_of_commandWord`, gives the cycle of every generator command; a property that the operations of a run's words keep
is kept by the run, which `runInputs_invariant` says once. -/

namespace Sys2Proof.Machine

/-! ## A command beside the ticks of its cycle -/

/-- Only TICKS, RESET and POLL write or read the filter, so any other operation can act before or after the sampling
group. -/
theorem samplingState_execState {i : Instr} (h : i.mnemonic ∉ ["TICKS", "RESET", "POLL"]) (p : Ports) (s : State) :
    samplingState p (execState i s) = execState i (samplingState p s) := by
  unfold samplingState
  split
  · cases i with
    | ticks | reset | poll => simp [Instr.mnemonic] at h
    | _ => rfl
  · rfl

/-- An opcode that selects an operation is no reserved one (R49, R121). -/
theorem cmdIllegal_of_commandOf {p : Ports} {i : Instr} (h : commandOf p.cmdOp p.cmdData = some i) :
    cmdIllegal p = false := by
  have hlegal : reservedOpcode p.cmdOp = false := by
    rw [Bool.eq_false_iff, ne_eq, ← commandOf_eq_none p.cmdOp p.cmdData, h]
    exact Option.some_ne_none i
  rw [cmdIllegal, hlegal, Bool.and_false]

/-- The cycle of a command that the filter does not concern: `cmd_illegal` is 0, and the command acts on what the two
tick groups give. -/
theorem step_of_commandWord {s : State} {op : Opcode} {i : Instr} (hword : CommandWord op s.inputWord)
    (hi : commandOf op (unpack s.inputWord).cmdData = some i) (h : i.mnemonic ∉ ["TICKS", "RESET", "POLL"]) :
    s.cmdIllegal = false ∧ step s = .next (execState i (withTicks (unpack s.inputWord) s.nextCycle)) := by
  obtain ⟨hrst, hvalid, rfl⟩ := hword
  refine ⟨cmdIllegal_of_commandOf hi, ?_⟩
  rw [step_of_command rfl hrst hvalid hi, samplingState_execState h, samplingState_elapsedState]

/-! ## What a run keeps -/

theorem ne_of_carries_eq_false {i j : Instr} {w : InputWord} (hi : carries i w = false) (hj : j ∈ decodeCycle w) :
    j ≠ i := by
  rintro rfl
  have hcarries : carries j w = true := List.contains_iff_mem.mpr hj
  simp [hcarries] at hi

/-- A property of the registers that every operation of a run's words keeps holds after the run. -/
theorem runInputs_invariant {P : State → Prop} {ws : List InputWord} {s : State}
    (hports : ∀ t is n, P t → P { t with inputs := is, cycle := n })
    (hexec : ∀ w ∈ ws, ∀ i ∈ decodeCycle w, ∀ t, P t → P (execState i t)) (hs : P s) :
    ∃ t, runInputs ws s = .next t ∧ P t := by
  have hcycle (t : State) (ht : P t) (w : InputWord) (hw : w ∈ ws) : P (cycleState w t) :=
    List.foldlRecOn (decodeCycle w) _ (hports t _ _ ht) fun u hu i hi => hexec w hw i hi u hu
  have hrun : P (ws.foldl (fun t w => cycleState w t) s) := List.foldlRecOn ws _ hs hcycle
  exact ⟨_, runInputs_eq_next ws s, hports _ _ _ hrun⟩

/-- ADV, RTS and RESET are the writers of LFSR (R21). -/
theorem execState_lfsr_of_ne {i : Instr} (hadv : i ≠ .adv) (hrts : i ≠ .rts) (hreset : i ≠ .reset) (s : State) :
    (execState i s).lfsr = s.lfsr := by
  refine execState_lfsr_of_not_writer ?_
  cases i with
  | adv => exact absurd rfl hadv
  | rts => exact absurd rfl hrts
  | reset => exact absurd rfl hreset
  | _ => simp [Instr.mnemonic]

/-- LFSR over a run whose words carry none of its writers (R67). -/
theorem runInputs_lfsr_of_not_carried {ws : List InputWord}
    (h : ∀ w ∈ ws, carries .adv w = false ∧ carries .rts w = false ∧ carries .reset w = false) (s : State) :
    ∃ t, runInputs ws s = .next t ∧ t.lfsr = s.lfsr := by
  refine runInputs_invariant (P := fun t => t.lfsr = s.lfsr) (fun _ _ _ ht => ht) ?_ rfl
  intro w hw i hi t ht
  obtain ⟨hadv, hrts, hreset⟩ := h w hw
  have hkeep : (execState i t).lfsr = t.lfsr :=
    execState_lfsr_of_ne (ne_of_carries_eq_false hadv hi) (ne_of_carries_eq_false hrts hi)
      (ne_of_carries_eq_false hreset hi) t
  exact hkeep.trans ht

/-! ## The corner cases of the advance (R61) -/

section Corners

variable (mask : Word)

@[simp] theorem advance_zero : advance mask 0#32 = 0#32 := by simp [advance]

@[simp] theorem advance_one : advance mask 1#32 = mask := by simp [advance_eq_xor]

@[simp] theorem advance_four : advance mask 4#32 = 2#32 := by simp [advance_eq_xor]

/-- A zero enters at the top, so bit 31 is the mask's where the mask applies. -/
theorem advance_getLsbD_top (lfsr : Word) :
    (advance mask lfsr).getLsbD 31 = (lfsr.getLsbD 0 && mask.getLsbD 31) := by
  rw [advance_getLsbD, BitVec.getLsbD_of_ge lfsr (31 + 1) le_rfl, Bool.false_xor]

/-- Zero is a fixed point, so every advance of it is zero. -/
@[simp] theorem iterate_advance_zero (n : Nat) : (advance mask)^[n] 0#32 = 0#32 :=
  Function.iterate_fixed (advance_zero mask) n

end Corners

/-! ## The obligations -/

/-- Settles O23: the digit is a function of LFSR alone, RTS and RESET make LFSR equal to START, and a run without a
writer of LFSR keeps it. -/
theorem digitStaysUntilLfsrIsWritten : Obligations.DigitStaysUntilLfsrIsWritten := by
  refine ⟨fun s => rfl, ?adv, ?startState, ?run⟩
  case adv =>
    intro s t h
    rw [exec_eq_next_iff] at h
    subst h
    rfl
  case startState =>
    intro s t h
    rw [exec_eq_next_iff, exec_eq_next_iff] at h
    obtain rfl | rfl := h <;> rfl
  case run =>
    intro ws s h
    obtain ⟨t, hrun, hlfsr⟩ := runInputs_lfsr_of_not_carried h s
    exact ⟨t, hrun, congrArg digitOf hlfsr⟩

/-- Settles O20: NOP answers its own state, and a cycle with it, as one without a command, is its two tick groups. -/
theorem nopKeepsEveryRegister : Obligations.NopKeepsEveryRegister := by
  refine ⟨exec_nop, fun s hrst hcommand => ?_⟩
  obtain hnop | hvalid := hcommand
  · exact step_of_commandWord hnop rfl (by decide)
  · exact ⟨cmdIllegal_of_cmdValid_false hvalid,
      step_of_commandEvents_nil rfl hrst (commandEvents_of_cmdValid_false hvalid)⟩

/-- Settles O21: ADV writes the advanced state into LFSR, and the corners are those of the advance. -/
theorem advShiftsAndXorsTheMask : Obligations.AdvShiftsAndXorsTheMask := by
  refine ⟨exec_adv, fun s hword => step_of_commandWord hword rfl (by decide), fun s t h => ?_⟩
  rw [exec_eq_next_iff] at h
  subst h
  have hlfsr : (execState .adv s).lfsr = advance Config.lfsrMask s.lfsr := rfl
  have hdigit : (execState .adv s).outputs.digit = digitOf (advance Config.lfsrMask s.lfsr) := rfl
  rw [hdigit, hlfsr]
  refine ⟨rfl, advance_getLsbD_top _ _, ?zero, ?one, ?four⟩
  case zero =>
    intro hzero
    rw [hzero, advance_zero]
    exact ⟨rfl, rfl⟩
  case one =>
    intro hone
    rw [hone, advance_one]
  case four =>
    intro hfour
    rw [hfour, advance_four]
    exact ⟨rfl, rfl⟩

/-- Settles O24: RTS writes LFSR and reads START, which it leaves, so a second RTS writes the same value. -/
theorem rtsReturnsToStart : Obligations.RtsReturnsToStart := by
  refine ⟨exec_rts, fun s hword => step_of_commandWord hword rfl (by decide), fun s t h => ?_⟩
  rw [exec_eq_next_iff] at h
  subst h
  exact ⟨rfl, rfl⟩

/-- Settles O25: RSD writes START alone, and the zero that an RTS then takes from it is a fixed point of the advance. -/
theorem rsdOverwritesStart : Obligations.RsdOverwritesStart := by
  refine ⟨exec_rsd, fun s hword => step_of_commandWord hword rfl (by simp [Instr.mnemonic]),
    fun s t u n hrsd hrts => ?_⟩
  rw [exec_eq_next_iff] at hrsd hrts
  subst hrsd hrts
  have hlfsr : (execState .rts (execState (.rsd 0x00000000#32) s)).lfsr = 0#32 := rfl
  rw [hlfsr, iterate_advance_zero]
  rfl

/-- Settles O26: SRQ writes PSEED and SEEDP and reads neither, so a second request leaves nothing of the first. -/
theorem srqLeavesASeed : Obligations.SrqLeavesASeed := by
  refine ⟨exec_srq, fun s hword => step_of_commandWord hword rfl (by simp [Instr.mnemonic]),
    fun a b s t h => ?_⟩
  rw [exec_eq_next_iff] at h
  subst h
  rfl

/-- Settles O27: a first SAP leaves SEEDP clear, and with SEEDP clear SAP changes nothing. -/
theorem sapAppliesAPendingSeed : Obligations.SapAppliesAPendingSeed := by
  refine ⟨fun s => exec_sap_pending, fun s => exec_sap_idle,
    fun s hword => step_of_commandWord hword rfl (by decide), fun s t h => ?_⟩
  rw [exec_eq_next_iff] at h
  subst h
  exact exec_sap_idle rfl

/-- Settles O28: CAP writes START alone, and an RTS then copies back the LFSR that CAP left. -/
theorem capCapturesTheState : Obligations.CapCapturesTheState := by
  refine ⟨exec_cap, fun s hword => step_of_commandWord hword rfl (by decide), fun s t u hcap hrts => ?_⟩
  rw [exec_eq_next_iff] at hcap hrts
  subst hcap hrts
  rfl

end Sys2Proof.Machine
end

section
/-! PROOFS. The elapsed-time counter in a cycle (spec/41_elapsed_time.md R80 to R82). ETC is the one command that writes
ET, so a cycle without it leaves ET to the elapsed-time group; the cycle with it is `step_of_commandWord`. -/

namespace Sys2Proof

/-! ## The opcode of ETC (R46) -/

/-- No other opcode selects ETC. -/
theorem opcode_of_commandOf_etc {op : Opcode} {d : Word} (h : commandOf op d = some .etc) : op = 0x8#4 := by
  unfold commandOf at h
  split at h
  -- the arm of opcode 8
  case h_8 hop => exact BitVec.eq_of_toNat_eq hop
  all_goals simp at h

theorem commandOf_of_mem_commandEvents {p : Ports} {i : Instr} (h : i ∈ commandEvents p) :
    p.cmdValid = true ∧ commandOf p.cmdOp p.cmdData = some i := by
  unfold commandEvents at h
  split at h
  · next hvalid => exact ⟨hvalid, Option.mem_toList.mp h⟩
  · exact absurd h List.not_mem_nil

end Sys2Proof

namespace Sys2Proof.Machine

/-- A cycle without reset that presents no command `0x8` carries no ETC. -/
theorem etc_notMem_commandEvents {w : InputWord} (hrst : (unpack w).rst = false) (hword : ¬ CommandWord 0x8#4 w) :
    Instr.etc ∉ commandEvents (unpack w) := by
  intro hmem
  obtain ⟨hvalid, hcommand⟩ := commandOf_of_mem_commandEvents hmem
  exact hword ⟨hrst, hvalid, opcode_of_commandOf_etc hcommand⟩

/-! ## ET in a cycle -/

/-- One tick in the arithmetic of R80. -/
theorem add_one_eq_ofNat_mod (et : TickCount) : et + 1#16 = BitVec.ofNat 16 ((et.toNat + 1) % 2 ^ 16) := by
  apply BitVec.eq_of_toNat_eq
  simp

@[simp] theorem elapsedState_et (p : Ports) (s : State) :
    (elapsedState p s).et = if p.tick1ms then s.et + 1#16 else s.et := by
  unfold elapsedState
  split <;> rfl

@[simp] theorem samplingState_et (p : Ports) (s : State) : (samplingState p s).et = s.et := by
  unfold samplingState
  split <;> rfl

/-- ETC is the only command among the writers of ET (R21). -/
theorem execState_et_of_command {i : Instr} (hgroup : i.group = .command) (hetc : i ≠ .etc) (s : State) :
    (execState i s).et = s.et := by
  refine execState_et_of_not_writer ?_
  cases i with
  | etc => exact absurd rfl hetc
  | tick1 | reset | ticks => simp [Instr.group] at hgroup
  | _ => simp [Instr.mnemonic]

theorem foldl_commandEvents_et {p : Ports} (hetc : Instr.etc ∉ commandEvents p) (s : State) :
    ((commandEvents p).foldl (fun t i => execState i t) s).et = s.et := by
  refine List.foldlRecOn (motive := fun t : State => t.et = s.et) (commandEvents p) _ rfl fun t ht i hi => ?_
  have hgroup : i.group = .command := commandOf_group (commandOf_of_mem_commandEvents hi).2
  have hne : i ≠ .etc := fun h => hetc (h ▸ hi)
  exact (execState_et_of_command hgroup hne t).trans ht

/-- Without ETC and reset the strobe alone decides ET (R80). -/
theorem step_et_of_not_etc {s : State} (hrst : (unpack s.inputWord).rst = false)
    (hword : ¬ CommandWord 0x8#4 s.inputWord) :
    ∃ t, step s = .next t ∧ t.et = if (unpack s.inputWord).tick1ms then s.et + 1#16 else s.et := by
  refine ⟨_, step_of_rst_false rfl hrst, ?_⟩
  rw [samplingState_et, foldl_commandEvents_et (etc_notMem_commandEvents hrst hword), elapsedState_et,
    State.nextCycle_et]

/-! ## The obligations -/

/-- Settles O36: TICK1 writes ET alone, the commands other than ETC and the sampling group leave it, and the 16-bit sum
wraps. -/
theorem tick1IncrementsElapsedTime : Obligations.Tick1IncrementsElapsedTime := by
  refine ⟨fun s => ?operation, fun s hrst hword => ?cycle, fun s t hmax h => ?wrap⟩
  case operation =>
    rw [exec_tick1, add_one_eq_ofNat_mod]
    rfl
  case cycle =>
    obtain ⟨t, hstep, het⟩ := step_et_of_not_etc hrst hword
    refine ⟨t, hstep, fun hstrobe => ?_, fun hstrobe => ?_⟩
    · rw [het, if_pos hstrobe, add_one_eq_ofNat_mod]
    · rw [het, hstrobe, if_neg Bool.false_ne_true]
  case wrap =>
    rw [exec_eq_next_iff] at h
    subst h
    rw [execState, State.writeEt_et, hmax]
    rfl

/-- Settles O37: ETC acts after the tick of its cycle, so the count it clears has the tick in it. -/
theorem etcClearsAndBeatsTick1 : Obligations.EtcClearsAndBeatsTick1 :=
  ⟨exec_etc, fun _ hword => step_of_commandWord hword rfl (by decide)⟩

end Sys2Proof.Machine
end

section
/-! PROOFS. The debounce filter, button by button and in a cycle (spec/42_debounce.md R90 to R93). The three registers
of the filter go through a cycle together, so what leaves them alone is said once, about `State.filterRegisters`. -/

namespace Sys2Proof.Machine

/-! ## One button of a sampling tick (R92, R93) -/

section Lanes

variable (n : Nat) (raw : Buttons) (s : State) {i : Nat}

theorem laneCommits_iff (ch : Bool) (count : Nat) : laneCommits n ch count = true ↔ ch = true ∧ count + 1 ≥ n := by
  rw [laneCommits, Bool.and_eq_true, decide_eq_true_iff]

/-- The commit of R93: the stable bit flips where the sample completes the run. -/
theorem sample_stable_getLsbD (h : i < 4) :
    (s.sample n raw).stable.getLsbD i =
      if (raw.getLsbD i ^^ s.stable.getLsbD i) = true ∧ laneCount s.cnt0 s.cnt1 i + 1 ≥ n then !s.stable.getLsbD i
      else s.stable.getLsbD i := by
  rw [State.sample_stable, filterStable_getLsbD n raw _ _ _ h]
  simp only [laneCommits_iff]

theorem sample_cnt0_getLsbD (h : i < 4) :
    (s.sample n raw).cnt0.getLsbD i =
      (laneNextCount n (raw.getLsbD i ^^ s.stable.getLsbD i) (laneCount s.cnt0 s.cnt1 i)).testBit 0 := by
  rw [State.sample_cnt0, filterCnt0_getLsbD n raw _ _ _ h]

theorem sample_cnt1_getLsbD (h : i < 4) :
    (s.sample n raw).cnt1.getLsbD i =
      (laneNextCount n (raw.getLsbD i ^^ s.stable.getLsbD i) (laneCount s.cnt0 s.cnt1 i)).testBit 1 := by
  rw [State.sample_cnt1, filterCnt1_getLsbD n raw _ _ _ h]

/-- A flip away from the level that differs from the raw one is the raw level. -/
theorem sample_stable_getLsbD_of_commit (h : i < 4) (hch : (raw.getLsbD i ^^ s.stable.getLsbD i) = true)
    (hrun : laneCount s.cnt0 s.cnt1 i + 1 ≥ n) : (s.sample n raw).stable.getLsbD i = raw.getLsbD i := by
  rw [sample_stable_getLsbD n raw s h, if_pos ⟨hch, hrun⟩, Bool.not_eq, ← Bool.xor_iff_ne, Bool.xor_comm]
  exact hch

/-- A sampling tick writes the three registers of the filter and no other (R90). -/
theorem sample_frame : s.sample n raw =
    { s with stable := (s.sample n raw).stable, cnt0 := (s.sample n raw).cnt0, cnt1 := (s.sample n raw).cnt1 } := rfl

/-- What a sampling tick leaves for a button is a function of that button's raw level, stable bit and count bits. -/
theorem sample_getLsbD_congr {raw raw' : Buttons} {s s' : State} (h : i < 4) (hraw : raw.getLsbD i = raw'.getLsbD i)
    (hstable : s.stable.getLsbD i = s'.stable.getLsbD i) (hcnt0 : s.cnt0.getLsbD i = s'.cnt0.getLsbD i)
    (hcnt1 : s.cnt1.getLsbD i = s'.cnt1.getLsbD i) :
    (s.sample n raw).stable.getLsbD i = (s'.sample n raw').stable.getLsbD i ∧
      (s.sample n raw).cnt0.getLsbD i = (s'.sample n raw').cnt0.getLsbD i ∧
      (s.sample n raw).cnt1.getLsbD i = (s'.sample n raw').cnt1.getLsbD i := by
  have hcount : laneCount s.cnt0 s.cnt1 i = laneCount s'.cnt0 s'.cnt1 i := by
    rw [laneCount, laneCount, hcnt0, hcnt1]
  simp only [sample_stable_getLsbD _ _ _ h, sample_cnt0_getLsbD _ _ _ h, sample_cnt1_getLsbD _ _ _ h, hraw, hstable,
    hcount, and_self]

end Lanes

/-! ## The three registers of the filter in a cycle (R90) -/

/-- The registers that TICKS reads and writes: STABLE, CNT0 and CNT1 (R90). -/
def State.filterRegisters (s : State) : Buttons × Buttons × Buttons := (s.stable, s.cnt0, s.cnt1)

theorem filterRegisters_eq_iff (s t : State) :
    s.filterRegisters = t.filterRegisters ↔ s.stable = t.stable ∧ s.cnt0 = t.cnt0 ∧ s.cnt1 = t.cnt1 := by
  rw [State.filterRegisters, State.filterRegisters, Prod.mk.injEq, Prod.mk.injEq]

@[simp] theorem filterRegisters_nextCycle (s : State) : s.nextCycle.filterRegisters = s.filterRegisters := rfl

/-- TICKS takes its three registers from themselves and the raw levels alone. -/
theorem filterRegisters_sample_congr (n : Nat) (raw : Buttons) {s t : State}
    (h : s.filterRegisters = t.filterRegisters) :
    (s.sample n raw).filterRegisters = (t.sample n raw).filterRegisters := by
  obtain ⟨hstable, hcnt0, hcnt1⟩ := (filterRegisters_eq_iff s t).mp h
  simp only [State.filterRegisters, State.sample_stable, State.sample_cnt0, State.sample_cnt1, hstable, hcnt0, hcnt1]

theorem filterRegisters_execState_of_not_writer {i : Instr} (h : i.mnemonic ∉ ["TICKS", "RESET"]) (s : State) :
    (execState i s).filterRegisters = s.filterRegisters :=
  (filterRegisters_eq_iff _ _).mpr
    ⟨execState_stable_of_not_writer h, execState_cnt0_of_not_writer h, execState_cnt1_of_not_writer h⟩

/-- No command is among the writers of the filter (R21). -/
theorem filterRegisters_execState_of_command {i : Instr} (hgroup : i.group = .command) (s : State) :
    (execState i s).filterRegisters = s.filterRegisters := by
  refine filterRegisters_execState_of_not_writer ?_ s
  cases i with
  | reset | tick1 | ticks => simp [Instr.group] at hgroup
  | _ => simp [Instr.mnemonic]

theorem filterRegisters_foldl_commandEvents (p : Ports) (s : State) :
    ((commandEvents p).foldl (fun t i => execState i t) s).filterRegisters = s.filterRegisters := by
  refine List.foldlRecOn (motive := fun t : State => t.filterRegisters = s.filterRegisters) (commandEvents p) _ rfl
    fun t ht i hi => ?_
  exact (filterRegisters_execState_of_command (commandOf_group (commandOf_of_mem_commandEvents hi).2) t).trans ht

@[simp] theorem filterRegisters_elapsedState (p : Ports) (s : State) :
    (elapsedState p s).filterRegisters = s.filterRegisters := by
  unfold elapsedState
  split <;> rfl

/-- The filter after a cycle without reset: the sampling group alone, on the registers before the edge. -/
theorem step_filterRegisters {s : State} {p : Ports} (hp : unpack s.inputWord = p) (hrst : p.rst = false) :
    ∃ t, step s = .next t ∧ t.filterRegisters = (samplingState p s).filterRegisters := by
  refine ⟨_, step_of_rst_false hp hrst, ?_⟩
  have hbefore : ((commandEvents p).foldl (fun t i => execState i t) (elapsedState p s.nextCycle)).filterRegisters =
      s.filterRegisters := by
    rw [filterRegisters_foldl_commandEvents, filterRegisters_elapsedState, filterRegisters_nextCycle]
  unfold samplingState
  split
  · exact filterRegisters_sample_congr 2 p.btnRaw hbefore
  · exact hbefore

/-- Without the strobe no operation of the cycle holds the raw levels. -/
theorem decodePorts_withRaw {p : Ports} (h : p.tickSample = false) (raw : Buttons) :
    decodePorts { p with btnRaw := raw } = decodePorts p := by
  have hsampling (q : Ports) (hq : q.tickSample = false) : samplingEvents q = [] := by
    rw [samplingEvents, hq, if_neg Bool.false_ne_true]
  unfold decodePorts
  rw [hsampling p h, hsampling { p with btnRaw := raw } h]
  rfl

/-! ## The obligations -/

/-- Settles O39: bit i of each register of the filter is the lane rule of R92 and R93, and a committing sample differs
from the stable bit that it flips. -/
theorem ticksCountsAndCommits : Obligations.TicksCountsAndCommits := by
  refine ⟨exec_ticks, ?_⟩
  rintro n raw s _ rfl
  refine ⟨sample_frame n raw s, ?_⟩
  rintro i hi _ _ _ rfl rfl rfl
  exact ⟨sample_cnt1_getLsbD n raw s hi, sample_cnt0_getLsbD n raw s hi, sample_stable_getLsbD n raw s hi,
    sample_stable_getLsbD_of_commit n raw s hi⟩

/-- Settles O40: the other groups of a cycle leave the filter, a cycle without the strobe carries no raw levels, and
each bit of the result is a function of the bits of its own index. -/
theorem filterActsOnTheStrobeButtonByButton : Obligations.FilterActsOnTheStrobeButtonByButton := by
  refine ⟨fun raw s => ⟨_, exec_ticks raw s, sample_frame 2 raw s⟩, ?cycle, ?lanes⟩
  case cycle =>
    intro s hrst
    obtain ⟨t, hstep, hfilter⟩ := step_filterRegisters rfl hrst
    refine ⟨t, hstep, fun hstrobe => ?_, fun hstrobe => ?_⟩
    · rw [samplingState, if_pos hstrobe] at hfilter
      exact ⟨_, exec_eq_next _ _, (filterRegisters_eq_iff _ _).mp hfilter⟩
    · rw [samplingState, hstrobe, if_neg Bool.false_ne_true] at hfilter
      obtain ⟨hstable, hcnt0, hcnt1⟩ := (filterRegisters_eq_iff _ _).mp hfilter
      refine ⟨hstable, hcnt0, hcnt1, fun raw => ?_⟩
      rw [step_driveInput_eq_step (decodePorts_withRaw hstrobe raw), hstep]
  case lanes =>
    intro i raw raw' s s' t t' hi hraw hstable hcnt0 hcnt1 ht ht'
    rw [exec_eq_next_iff] at ht ht'
    subst ht ht'
    exact sample_getLsbD_congr 2 hi hraw hstable hcnt0 hcnt1

end Sys2Proof.Machine
end

section
/-! PROOFS. The snapshot pair and the edge detector (spec/43_snapshot_edge.md R100 to R105). POLL reads STABLE, which
the sampling group of its cycle writes after it, and the two write different registers, so POLL can be moved behind
the group once its operands are taken. -/

namespace Sys2Proof.Machine

/-! ## POLL beside the ticks of its cycle (R101) -/

/-- The sampling group neither reads nor writes the snapshots. -/
theorem samplingState_writeSnapshots (p : Ports) (s : State) (cur prev : Buttons) :
    samplingState p (s.writeSnapshots cur prev) = (samplingState p s).writeSnapshots cur prev := by
  unfold samplingState
  split <;> rfl

@[simp] theorem elapsedState_stable (p : Ports) (s : State) : (elapsedState p s).stable = s.stable := by
  unfold elapsedState
  split <;> rfl

@[simp] theorem elapsedState_cur (p : Ports) (s : State) : (elapsedState p s).cur = s.cur := by
  unfold elapsedState
  split <;> rfl

/-- POLL between the tick groups takes the registers from before both, and leaves the rest to the groups. -/
theorem samplingState_poll_elapsedState (p : Ports) (s : State) :
    samplingState p (execState .poll (elapsedState p s)) = (withTicks p s).writeSnapshots s.stable s.cur := by
  rw [execState, samplingState_writeSnapshots, elapsedState_stable, elapsedState_cur, samplingState_elapsedState]

/-! ## The edges (R102 to R104) -/

section Edges

variable (s : State) {i : Nat}

theorem pressed_getLsbD (levels : Buttons) (h : i < 4) : (pressed levels).getLsbD i = !levels.getLsbD i := by
  simp [pressed_eq, h]

theorem outputs_press_eq : s.outputs.press = ~~~s.cur &&& s.prev := by
  simp [State.outputs, pressEdges, pressed_eq]

theorem outputs_release_eq : s.outputs.release = s.cur &&& ~~~s.prev := by
  simp [State.outputs, releaseEdges, pressed_eq]

theorem outputs_press_getLsbD_iff (h : i < 4) :
    s.outputs.press.getLsbD i = true ↔ s.cur.getLsbD i = false ∧ s.prev.getLsbD i = true := by
  simp [outputs_press_eq, h]

theorem outputs_release_getLsbD_iff (h : i < 4) :
    s.outputs.release.getLsbD i = true ↔ s.cur.getLsbD i = true ∧ s.prev.getLsbD i = false := by
  simp [outputs_release_eq, h]

/-- A press edge needs CUR at 0, and POLL moves CUR to PREV, where a press edge needs 1 (R105). -/
theorem outputs_press_poll_disjoint : (execState .poll s).outputs.press &&& s.outputs.press = 0b0000#4 := by
  refine buttons_ext fun i hi => ?_
  rw [BitVec.getLsbD_and, BitVec.getLsbD_zero]
  refine Bool.eq_false_of_not_eq_true fun hboth => ?_
  obtain ⟨hnext, hnow⟩ := Bool.and_eq_true_iff.mp hboth
  have hreleased : s.cur.getLsbD i = true := ((outputs_press_getLsbD_iff _ hi).mp hnext).2
  have hpressed : s.cur.getLsbD i = false := ((outputs_press_getLsbD_iff s hi).mp hnow).1
  exact Bool.false_ne_true (hpressed.symm.trans hreleased)

end Edges

/-! ## The fixed-priority selection (R105) -/

section Selection

variable {press : Buttons} {i : Nat}

theorem pressAny_iff : pressAny press = true ↔ press ≠ 0b0000#4 := bne_iff_ne

/-- The index that shows an edge, where no lower one does, is selected. -/
theorem pressIdx_toNat_of_lowest (h : i < 4) (hedge : press.getLsbD i = true)
    (hlower : ∀ j < i, ¬ press.getLsbD j = true) : (pressIdx press).toNat = i := by
  obtain rfl | rfl | rfl | rfl : i = 0 ∨ i = 1 ∨ i = 2 ∨ i = 3 := by omega
  · rw [pressIdx, if_pos hedge]
    rfl
  · rw [pressIdx, if_neg (hlower 0 (by decide)), if_pos hedge]
    rfl
  · rw [pressIdx, if_neg (hlower 0 (by decide)), if_neg (hlower 1 (by decide)), if_pos hedge]
    rfl
  · rw [pressIdx, if_neg (hlower 0 (by decide)), if_neg (hlower 1 (by decide)), if_neg (hlower 2 (by decide)),
      if_pos hedge]
    rfl

theorem exists_edge_of_pressAny (h : pressAny press = true) : ∃ i, press.getLsbD i = true := by
  by_contra hnone
  refine pressAny_iff.mp h (buttons_ext fun i _ => ?_)
  rw [BitVec.getLsbD_zero]
  exact Bool.eq_false_of_not_eq_true (not_exists.mp hnone i)

/-- Where there is an edge there is a lowest one, and it is selected. -/
theorem pressIdx_lowest (h : pressAny press = true) :
    press.getLsbD (pressIdx press).toNat = true ∧ ∀ j < (pressIdx press).toNat, press.getLsbD j = false := by
  have hex := exists_edge_of_pressAny h
  have hedge : press.getLsbD (Nat.find hex) = true := Nat.find_spec hex
  have hlower : ∀ j < Nat.find hex, ¬ press.getLsbD j = true := fun _ => Nat.find_min hex
  rw [pressIdx_toNat_of_lowest (BitVec.lt_of_getLsbD hedge) hedge hlower]
  exact ⟨hedge, fun j hj => Bool.eq_false_of_not_eq_true (hlower j hj)⟩

theorem pressIdx_of_not_pressAny (h : pressAny press = false) : pressIdx press = 0#2 := by
  have hzero : press = 0b0000#4 := bne_eq_false_iff_eq.mp h
  rw [hzero]
  rfl

end Selection

/-! ## The obligations -/

/-- Settles O49: POLL reads STABLE and CUR before either tick group can write them. -/
theorem pollTakesTheSnapshots : Obligations.PollTakesTheSnapshots := by
  refine ⟨exec_poll, fun s ⟨hrst, hvalid, hop⟩ => ?_⟩
  have hpoll : commandOf (unpack s.inputWord).cmdOp (unpack s.inputWord).cmdData = some .poll := by rw [hop]; rfl
  refine ⟨cmdIllegal_of_commandOf hpoll, ?_⟩
  rw [step_of_command rfl hrst hvalid hpoll, samplingState_poll_elapsedState]
  rfl

/-- Settles O50: `pressed` is the complement of the levels, and the edges are its two differences between CUR and
PREV. -/
theorem edgesAreTransitions : Obligations.EdgesAreTransitions := by
  refine ⟨fun v i hi => ?_, fun s i hi => ?_, fun s => ⟨outputs_press_eq s, outputs_release_eq s⟩⟩
  · rw [pressed_getLsbD v hi, Bool.not_eq_true']
  · exact ⟨outputs_press_getLsbD_iff s hi, outputs_release_getLsbD_iff s hi⟩

/-- Settles O51: the lowest edge is the one selected, and after a POLL a button that showed a press edge has PREV at
0. -/
theorem pressIndexIsTheLowest : Obligations.PressIndexIsTheLowest := by
  refine fun s => ⟨pressAny_iff, pressIdx_lowest, pressIdx_of_not_pressAny, fun t h => ?_⟩
  rw [exec_eq_next_iff] at h
  subst h
  exact outputs_press_poll_disjoint s

end Sys2Proof.Machine
end

section
/-! PROOFS. The condition that `cmd_illegal` reports (spec/60_exceptions.md R121): a reserved opcode is presented,
and its cycle decodes to the operations of the same cycle without the command. -/

namespace Sys2Proof

/-- Taking back a command that asks for nothing leaves the operations of the cycle (R48, R49). -/
theorem decodePorts_withoutCommand {p : Ports} (h : commandEvents p = []) :
    decodePorts { p with cmdValid := false } = decodePorts p := by
  have hnone : commandEvents { p with cmdValid := false } = [] := commandEvents_of_cmdValid_false rfl
  unfold decodePorts
  rw [h, hnone]
  rfl

theorem commandEvents_of_reserved {p : Ports} (h : reservedOpcode p.cmdOp = true) : commandEvents p = [] := by
  unfold commandEvents
  rw [(commandOf_eq_none p.cmdOp p.cmdData).mpr h, Option.toList_none, ite_self]

end Sys2Proof

namespace Sys2Proof.Machine

theorem cmdIllegal_iff (p : Ports) :
    cmdIllegal p = true ↔ p.rst = false ∧ p.cmdValid = true ∧ reservedOpcode p.cmdOp = true := by
  rw [cmdIllegal, Bool.and_eq_true, Bool.and_eq_true, Bool.not_eq_true', and_assoc]

/-- Settles O10: a reserved opcode selects no operation, so the cycle decodes as it does without the command. -/
theorem cmdIllegalReportsReservedOpcodes : Obligations.CmdIllegalReportsReservedOpcodes := by
  refine ⟨fun p => ?equation, fun s hillegal => ?noTrace⟩
  case equation => rw [cmdIllegal_iff, reservedOpcode_iff_mem]
  case noTrace =>
    obtain ⟨_, _, hreserved⟩ := (cmdIllegal_iff (unpack s.inputWord)).mp hillegal
    exact (step_driveInput_eq_step (decodePorts_withoutCommand (commandEvents_of_reserved hreserved))).symm

end Sys2Proof.Machine
end

section
/-! PROOFS. Reset held for several cycles (spec/70_reset_and_hazards.md R140). A cycle with `rst` = 1 leaves the reset
registers from any state, so of a run of reset cycles the last alone matters; and two runs over the same words from the
same registers end in the same registers. -/

namespace Sys2Proof.Machine

/-- The registers after one cycle of a run, from the registers before it and its word (R8). -/
theorem cycleState_registers (w : InputWord) (s : State) :
    (cycleState w s).registers = (decodeCycle w).foldl (fun t i => execState i t) s.registers :=
  (foldl_execState_registers (decodeCycle w) { s with inputs := [], cycle := s.cycle + 1 }).symm

theorem SameRegisters.cycleState {s t : State} (h : SameRegisters s t) (w : InputWord) :
    SameRegisters (cycleState w s) (cycleState w t) := by
  rw [sameRegisters_iff] at h ⊢
  rw [cycleState_registers, cycleState_registers, h]

/-- The registers after a run are a function of the registers before it and the run's words (R8). -/
theorem SameRegisters.exists_runInputs {s t : State} (h : SameRegisters s t) (ws : List InputWord) :
    ∃ s' t', runInputs ws s = .next s' ∧ runInputs ws t = .next t' ∧ SameRegisters s' t' := by
  induction ws generalizing s t with
  | nil => exact ⟨_, _, runInputs_nil s, runInputs_nil t, h⟩
  | cons w ws ih =>
    rw [runInputs_cons, runInputs_cons]
    exact ih (h.cycleState w)

theorem cycleState_sameRegisters_reset {w : InputWord} (h : (unpack w).rst = true) (s : State) :
    SameRegisters (cycleState w s) State.reset := by
  rw [cycleState, decodeCycle, decodePorts_rst h]
  rfl

/-- The last of the reset cycles decides, whatever the ones before it left. -/
theorem foldl_cycleState_sameRegisters_reset {ws : List InputWord} (hne : ws ≠ [])
    (h : ∀ w ∈ ws, (unpack w).rst = true) (s : State) :
    SameRegisters (ws.foldl (fun t w => cycleState w t) s) State.reset := by
  rw [← List.dropLast_append_getLast hne, List.foldl_concat]
  exact cycleState_sameRegisters_reset (h _ (List.getLast_mem hne)) _

/-- Settles O19: the reset cycles leave the reset registers, and the words that follow give the same registers from
there as from the reset state. -/
theorem heldResetActsAsOneReset : Obligations.HeldResetActsAsOneReset := by
  refine ⟨fun s hrst => ⟨cmdIllegal_of_rst hrst, _, step_of_rst hrst, rfl⟩, fun ws vs s hne hrst => ?_⟩
  rw [runInputs_append]
  exact (foldl_cycleState_sameRegisters_reset hne hrst s).exists_runInputs vs

end Sys2Proof.Machine
end

section
/-! PROOFS. Operations and input words (spec/30_encoding.md R43 to R52): which operations a cycle carries group by group,
the round trip through the canonical word, and the decoder beside the table of match and mask values. -/

namespace Sys2Proof

/-! ## The groups of a cycle (R44, R45, R50) -/

theorem group_eq_reset_iff (i : Instr) : i.group = .reset ↔ i = .reset := by
  cases i <;> simp [Instr.group]

/-- RESET alone, or operations of the three groups in the order of R37. -/
theorem wellFormedCycle_iff (is : List Instr) :
    wellFormedCycle is = true ↔
      is = [.reset] ∨ ((∀ i ∈ is, i.group ≠ .reset) ∧ is.Pairwise fun i j => i.group.rank < j.group.rank) := by
  unfold wellFormedCycle
  split
  case isTrue hany =>
    obtain ⟨i, hi, hgroup⟩ := List.any_eq_true.mp hany
    have hreset : i.group = .reset := eq_of_beq hgroup
    have hnone : ¬ ∀ j ∈ is, j.group ≠ .reset := fun h => h i hi hreset
    obtain rfl := (group_eq_reset_iff i).mp hreset
    rw [beq_iff_eq, List.length_eq_one_iff]
    constructor
    · rintro ⟨j, rfl⟩
      exact .inl (congrArg ([·]) (List.mem_singleton.mp hi).symm)
    · rintro (h | ⟨h, _⟩)
      · exact ⟨.reset, h⟩
      · exact absurd h hnone
  case isFalse hany =>
    have hnone : ∀ i ∈ is, i.group ≠ .reset := fun i hi hreset =>
      hany (List.any_eq_true.mpr ⟨i, hi, beq_iff_eq.mpr hreset⟩)
    rw [decide_eq_true_iff]
    constructor
    · exact fun h => .inr ⟨hnone, h⟩
    · rintro (rfl | ⟨_, h⟩)
      · exact List.pairwise_singleton _ _
      · exact h

theorem mem_elapsedEvents_iff {p : Ports} {i : Instr} : i ∈ elapsedEvents p ↔ p.tick1ms = true ∧ i = .tick1 := by
  unfold elapsedEvents
  split <;> simp [*]

theorem mem_commandEvents_iff {p : Ports} {i : Instr} :
    i ∈ commandEvents p ↔ p.cmdValid = true ∧ commandOf p.cmdOp p.cmdData = some i := by
  unfold commandEvents
  split <;> simp [*]

theorem mem_samplingEvents_iff {p : Ports} {i : Instr} :
    i ∈ samplingEvents p ↔ p.tickSample = true ∧ i = .ticks p.btnRaw := by
  unfold samplingEvents
  split <;> simp [*]

theorem group_of_mem_elapsedEvents {p : Ports} {i : Instr} (h : i ∈ elapsedEvents p) : i.group = .elapsed := by
  rw [(mem_elapsedEvents_iff.mp h).2]
  rfl

theorem group_of_mem_commandEvents {p : Ports} {i : Instr} (h : i ∈ commandEvents p) : i.group = .command :=
  commandOf_group (mem_commandEvents_iff.mp h).2

theorem group_of_mem_samplingEvents {p : Ports} {i : Instr} (h : i ∈ samplingEvents p) : i.group = .sampling := by
  rw [(mem_samplingEvents_iff.mp h).2]
  rfl

/-- No group has two events in a cycle (R45). -/
theorem pairwise_events (p : Ports) (r : Instr → Instr → Prop) :
    (elapsedEvents p).Pairwise r ∧ (commandEvents p).Pairwise r ∧ (samplingEvents p).Pairwise r := by
  unfold elapsedEvents commandEvents samplingEvents
  refine ⟨by split <;> simp, ?_, by split <;> simp⟩
  split
  · cases commandOf p.cmdOp p.cmdData <;> simp
  · exact .nil

/-- The three groups stand in the order of R37. -/
theorem decodePorts_pairwise {p : Ports} (hrst : p.rst = false) :
    (decodePorts p).Pairwise fun i j => i.group.rank < j.group.rank := by
  obtain ⟨helapsed, hcommand, hsampling⟩ := pairwise_events p fun i j => i.group.rank < j.group.rank
  rw [decodePorts_groups hrst, List.pairwise_append, List.pairwise_append]
  refine ⟨⟨helapsed, hcommand, fun i hi j hj => ?_⟩, hsampling, fun i hi j hj => ?_⟩
  · rw [group_of_mem_elapsedEvents hi, group_of_mem_commandEvents hj]
    decide
  · rw [group_of_mem_samplingEvents hj]
    obtain hi | hi := List.mem_append.mp hi
    · rw [group_of_mem_elapsedEvents hi]
      decide
    · rw [group_of_mem_commandEvents hi]
      decide

theorem group_ne_reset_of_mem_decodePorts {p : Ports} (hrst : p.rst = false) {i : Instr} (hi : i ∈ decodePorts p) :
    i.group ≠ .reset := by
  rw [decodePorts_groups hrst, List.mem_append, List.mem_append] at hi
  obtain (hi | hi) | hi := hi
  · rw [group_of_mem_elapsedEvents hi]
    decide
  · rw [group_of_mem_commandEvents hi]
    decide
  · rw [group_of_mem_samplingEvents hi]
    decide

theorem wellFormedCycle_decodePorts (p : Ports) : wellFormedCycle (decodePorts p) = true := by
  rw [wellFormedCycle_iff]
  obtain hrst | hrst := Bool.eq_false_or_eq_true p.rst
  · exact .inl (decodePorts_rst hrst)
  · exact .inr ⟨fun _ => group_ne_reset_of_mem_decodePorts hrst, decodePorts_pairwise hrst⟩

/-! ## The canonical word (R46, R51, R53) -/

theorem drive_rst {i : Instr} (h : i.group ≠ .reset) (p : Ports) : (drive i p).rst = p.rst := by
  cases i with
  | reset => exact absurd rfl h
  | _ => rfl

/-- A group that would have to come before itself does not fire. -/
theorem events_eq_nil {is : List Instr} {g : EventGroup} {n : Nat} (hgroup : ∀ {j}, j ∈ is → j.group = g)
    (hlater : ∀ j ∈ is, n < j.group.rank) (hn : g.rank ≤ n) : is = [] := by
  refine List.eq_nil_iff_forall_not_mem.mpr fun j hj => ?_
  have hlt : n < j.group.rank := hlater j hj
  rw [hgroup hj] at hlt
  omega

/-- Driving a command before the sampling group puts it at the head of the cycle. -/
theorem decodePorts_driveCommand {op : Opcode} {d : Word} {i : Instr} {p : Ports} (hop : commandOf op d = some i)
    (hrst : p.rst = false) (hfirst : ∀ j ∈ decodePorts p, 2 < j.group.rank) :
    decodePorts (driveCommand op d p) = i :: decodePorts p := by
  have hcommand : commandEvents (driveCommand op d p) = [i] := by
    rw [commandEvents_of_cmdValid rfl, driveCommand, hop, Option.toList_some]
  rw [decodePorts_groups hrst] at hfirst ⊢
  simp only [List.mem_append, or_imp, forall_and] at hfirst
  obtain ⟨⟨helapsed, hlater⟩, _⟩ := hfirst
  have hnil : elapsedEvents p = [] := events_eq_nil group_of_mem_elapsedEvents helapsed (by decide)
  rw [decodePorts_groups (p := driveCommand op d p) hrst, hcommand, hnil,
    events_eq_nil group_of_mem_commandEvents hlater (le_refl 2)]
  change elapsedEvents p ++ [i] ++ samplingEvents p = _
  rw [hnil]
  rfl

/-- Driving an operation whose group comes before the groups that fire puts it at the head of the cycle. -/
theorem decodePorts_drive {i : Instr} {p : Ports} (hgroup : i.group ≠ .reset) (hrst : p.rst = false)
    (hfirst : ∀ j ∈ decodePorts p, i.group.rank < j.group.rank) :
    decodePorts (drive i p) = i :: decodePorts p := by
  cases i with
  | reset => exact absurd rfl hgroup
  | tick1 =>
    have helapsed : elapsedEvents p = [] := by
      refine events_eq_nil group_of_mem_elapsedEvents (fun j hj => hfirst j ?_) (le_refl 1)
      rw [decodePorts_groups hrst]
      exact List.mem_append_left _ (List.mem_append_left _ hj)
    rw [decodePorts_groups hrst, helapsed]
    exact decodePorts_groups (p := drive .tick1 p) hrst
  | ticks raw =>
    have hnil : decodePorts p = [] := by
      refine List.eq_nil_iff_forall_not_mem.mpr fun j hj => ?_
      have hrank : j.group.rank ≤ 3 := by cases j.group <;> decide
      exact absurd (hfirst j hj) (Nat.not_lt.mpr hrank)
    rw [hnil]
    rw [decodePorts_groups hrst, List.append_eq_nil_iff] at hnil
    exact (decodePorts_groups (p := drive (.ticks raw) p) hrst).trans (congrArg (· ++ [Instr.ticks raw]) hnil.1)
  | _ => exact decodePorts_driveCommand rfl hrst hfirst

/-- The ports of a well-formed cycle without RESET carry its operations, the first of them driven last. -/
theorem decodePorts_foldr_drive {is : List Instr} (hgroup : ∀ i ∈ is, i.group ≠ .reset)
    (horder : is.Pairwise fun i j => i.group.rank < j.group.rank) :
    (is.foldr drive idlePorts).rst = false ∧ decodePorts (is.foldr drive idlePorts) = is := by
  induction is with
  | nil => exact ⟨rfl, rfl⟩
  | cons i is ih =>
    obtain ⟨hi, his⟩ := List.forall_mem_cons.mp hgroup
    obtain ⟨hfirst, horder⟩ := List.pairwise_cons.mp horder
    obtain ⟨hrst, hdecode⟩ := ih his horder
    rw [← hdecode] at hfirst
    refine ⟨(drive_rst hi _).trans hrst, ?_⟩
    rw [List.foldr_cons, decodePorts_drive hi hrst hfirst, hdecode]

theorem decodeCycle_encodeCycle {is : List Instr} (h : wellFormedCycle is = true) :
    decodeCycle (encodeCycle is) = is := by
  rw [decodeCycle, unpack_encodeCycle]
  obtain rfl | ⟨hgroup, horder⟩ := (wellFormedCycle_iff is).mp h
  · rfl
  · exact (decodePorts_foldr_drive hgroup horder).2

/-! ## One operation in a word (logs 10 and 11) -/

/-- An operation alone is well-formed: its operand is as wide as its port (R47). -/
theorem wellFormedCycle_singleton (i : Instr) : wellFormedCycle [i] = true := by
  cases i <;> rfl

@[simp] theorem decodeCycle_encode (i : Instr) : decodeCycle (encode i) = [i] :=
  decodeCycle_encodeCycle (wellFormedCycle_singleton i)

/-- No operation drives a reserved opcode. -/
theorem cmdIllegal_encode (i : Instr) : Machine.cmdIllegal (unpack (encode i)) = false := by
  rw [encode, unpack_encodeCycle]
  cases i <;> rfl

/-- A word that carries one operation and raises no `cmd_illegal` is read as this operation. -/
theorem decodeWord_of_decodeCycle {w : InputWord} {i : Instr} (hone : decodeCycle w = [i])
    (hlegal : Machine.cmdIllegal (unpack w) = false) : decodeWord w = .ok i := by
  rw [decodeCycle] at hone
  unfold decodeWord
  cases hrst : (unpack w).rst with
  | true =>
    rw [decodePorts_rst hrst, List.cons.injEq] at hone
    simp only [hrst, if_true, hone.1]
  | false =>
    rw [Machine.cmdIllegal, hrst] at hlegal
    have hcommand : ((unpack w).cmdValid && reservedOpcode (unpack w).cmdOp) = false := hlegal
    simp only [hrst, hcommand, hone, Bool.false_eq_true, if_false]

/-- A word of 44 bits is an input word (R43). -/
theorem decode_toNat (w : InputWord) : decode w.toNat = decodeWord w := by
  rw [decode, if_pos w.isLt, BitVec.ofNat_toNat, BitVec.setWidth_eq]

theorem decode_encode (i : Instr) : decode (encode i).toNat = .ok i := by
  rw [decode_toNat]
  exact decodeWord_of_decodeCycle (decodeCycle_encode i) (cmdIllegal_encode i)

/-- A number that decodes is an input word, and decodes as it. -/
theorem decodeWord_of_decode {n : Nat} {i : Instr} (h : decode n = .ok i) : decodeWord (BitVec.ofNat 44 n) = .ok i := by
  unfold decode at h
  split at h
  · exact h
  · cases h

/-! ## The obligations -/

/-- Settles O3: the canonical word is the packed ports, and driving the operations from the last to the first puts each
at the head of what the ports carry. -/
theorem cycleRoundTrip : Obligations.CycleRoundTrip := fun _ => decodeCycle_encodeCycle

/-- Settles O2: an operation alone is a well-formed cycle whose word raises no `cmd_illegal`, and 48 bits hold its
number. -/
theorem instructionRoundTrip : Obligations.InstructionRoundTrip := by
  intro i _
  have hlt : (encode i).toNat < 2 ^ 48 := lt_of_lt_of_le (encode i).isLt (by decide)
  refine ⟨decode_encode i, ?_⟩
  rw [decodeTableWord, Nat.mod_eq_of_lt hlt, decode_encode]
  rfl

/-- Settles O4: with `rst` = 1 the word carries RESET alone, and otherwise its three groups in the order of R37. -/
theorem everyWordIsAWellFormedCycle : Obligations.EveryWordIsAWellFormedCycle :=
  fun w => wellFormedCycle_decodePorts (unpack w)

/-- Settles O1: each of the thirteen words is evaluated. -/
theorem writtenOutWordsDecode : Obligations.WrittenOutWordsDecode :=
  ⟨rfl, rfl, rfl, rfl, rfl, rfl, rfl, rfl, rfl, rfl, rfl, rfl, rfl⟩

end Sys2Proof

namespace Sys2Proof.Machine

/-- The step of a word that decodes to one operation; an idle word is read as NOP, which changes nothing (R48). -/
theorem step_of_decodeWord {s : State} {i : Instr} (h : decodeWord s.inputWord = .ok i) :
    step s = exec i s.nextCycle := by
  rw [step_eq_runEvents]
  obtain hone | ⟨hidle, rfl⟩ := decodeWord_ok h
  · rw [hone, runEvents_singleton]
  · rw [hidle, runEvents_nil, exec_nop]

/-- Settles O11: a step runs the operations of its word, and the placed word is the word of the cycle. -/
theorem stepRunsTheDecodedInstruction : Obligations.StepRunsTheDecodedInstruction := by
  refine ⟨fun s i => step_of_decodeWord, fun s nbits w i h => ?_⟩
  have hdecode : decode (w % 2 ^ nbits) = .ok i := by
    unfold decodeTableWord at h
    cases hw : decode (w % 2 ^ nbits) with
    | error => simp [hw, Except.toOption] at h
    | ok j => simpa [hw, Except.toOption] using h
  exact step_of_decodeWord (s := s.withFetchWord nbits w) (decodeWord_of_decode hdecode)

end Sys2Proof.Machine
end

section
/-! PROOFS. The decoder beside the table of match and mask values (opcode_table.json). A row fits a word when the word's
ports agree with the row's under the row's mask, port by port, because masking a word masks its fields. -/

namespace Sys2Proof

/-! ## Masked ports -/

/-- The ports that a mask lets through. -/
def Ports.masked (p m : Ports) : Ports where
  rst := p.rst && m.rst
  tick1ms := p.tick1ms && m.tick1ms
  tickSample := p.tickSample && m.tickSample
  btnRaw := p.btnRaw &&& m.btnRaw
  cmdValid := p.cmdValid && m.cmdValid
  cmdOp := p.cmdOp &&& m.cmdOp
  cmdData := p.cmdData &&& m.cmdData

theorem unpack_and (w m : InputWord) : unpack (w &&& m) = (unpack w).masked (unpack m) := by
  simp only [unpack, Ports.masked, BitVec.getLsbD_and, BitVec.extractLsb'_and]

theorem unpack_inj {w v : InputWord} : unpack w = unpack v ↔ w = v :=
  (Function.LeftInverse.injective pack_unpack).eq_iff

/-- A row fits a word when the masked ports are the row's. -/
theorem fits_iff (r : Row) (w : InputWord) : r.fits w = true ↔ (unpack w).masked (unpack r.mask) = unpack r.bits := by
  rw [Row.fits, beq_iff_eq, ← unpack_and, unpack_inj]

/-! ## The rows -/

/-- A command's row looks at `rst`, `cmd_valid` and the opcode (R46). -/
def commandRow (mnemonic : String) (op : Opcode) : Row where
  mnemonic := mnemonic
  bits := pack (driveCommand op 0#32 idlePorts)
  mask := pack { driveCommand 0xF#4 0#32 idlePorts with rst := true }

/-- RESET's row looks at `rst` alone (R50). -/
def resetRow : Row where
  mnemonic := "RESET"
  bits := pack { idlePorts with rst := true }
  mask := pack { idlePorts with rst := true }

/-- TICK1's row looks at `rst` and its strobe (R51). -/
def tick1Row : Row where
  mnemonic := "TICK1"
  bits := pack { idlePorts with tick1ms := true }
  mask := pack { idlePorts with rst := true, tick1ms := true }

/-- TICKS's row looks at `rst` and its strobe (R51). -/
def ticksRow : Row where
  mnemonic := "TICKS"
  bits := pack { idlePorts with tickSample := true }
  mask := pack { idlePorts with rst := true, tickSample := true }

theorem fits_commandRow (m : String) (op : Opcode) (w : InputWord) :
    (commandRow m op).fits w = true ↔
      (unpack w).rst = false ∧ (unpack w).cmdValid = true ∧ (unpack w).cmdOp = op := by
  have hall : (unpack w).cmdOp &&& 0xF#4 = (unpack w).cmdOp := BitVec.and_allOnes
  rw [fits_iff]
  simp [-unpack_rst, -unpack_cmdValid, -unpack_cmdOp, commandRow, driveCommand, idlePorts, Ports.masked, hall]

theorem fits_resetRow (w : InputWord) : resetRow.fits w = true ↔ (unpack w).rst = true := by
  rw [fits_iff]
  simp [-unpack_rst, resetRow, idlePorts, Ports.masked]

theorem fits_tick1Row (w : InputWord) :
    tick1Row.fits w = true ↔ (unpack w).rst = false ∧ (unpack w).tick1ms = true := by
  rw [fits_iff]
  simp [-unpack_rst, -unpack_tick1ms, tick1Row, idlePorts, Ports.masked]

theorem fits_ticksRow (w : InputWord) :
    ticksRow.fits w = true ↔ (unpack w).rst = false ∧ (unpack w).tickSample = true := by
  rw [fits_iff]
  simp [-unpack_rst, -unpack_tickSample, ticksRow, idlePorts, Ports.masked]

/-! ## The mnemonics of a cycle -/

/-- The mnemonic of the command that an opcode selects, which its operand has no part in. -/
def commandMnemonic (op : Opcode) : Option String := (commandOf op 0#32).map Instr.mnemonic

theorem map_mnemonic_commandOf (op : Opcode) (d : Word) : (commandOf op d).map Instr.mnemonic = commandMnemonic op := by
  unfold commandMnemonic commandOf
  split <;> rfl

/-- The table holds a row for every command, under its own mnemonic, and the rows of the three events. -/
theorem mem_opcodeTable : ∀ r ∈ opcodeTable,
    (∃ op, commandMnemonic op = some r.mnemonic ∧ r = commandRow r.mnemonic op) ∨
      r = resetRow ∨ r = tick1Row ∨ r = ticksRow := by
  decide

/-- No two opcodes select commands of one mnemonic. -/
theorem commandMnemonic_inj :
    ∀ op op', commandMnemonic op ≠ none → commandMnemonic op' = commandMnemonic op → op' = op := by
  decide

/-- A command has no event's mnemonic. -/
theorem commandMnemonic_ne_event : ∀ op, ∀ m ∈ ["RESET", "TICK1", "TICKS"], commandMnemonic op ≠ some m := by
  decide

theorem exists_mnemonic_commandEvents_iff (p : Ports) (m : String) :
    (∃ i ∈ commandEvents p, i.mnemonic = m) ↔ p.cmdValid = true ∧ commandMnemonic p.cmdOp = some m := by
  simp only [mem_commandEvents_iff, ← map_mnemonic_commandOf p.cmdOp p.cmdData, Option.map_eq_some_iff, and_assoc,
    exists_and_left]

/-- The mnemonics that a cycle carries, from its ports. -/
theorem exists_mnemonic_decodePorts_iff (p : Ports) (m : String) :
    (∃ i ∈ decodePorts p, i.mnemonic = m) ↔
      (p.rst = true ∧ "RESET" = m) ∨
        (p.rst = false ∧ ((p.tick1ms = true ∧ "TICK1" = m) ∨ (p.cmdValid = true ∧ commandMnemonic p.cmdOp = some m) ∨
          (p.tickSample = true ∧ "TICKS" = m))) := by
  cases hrst : p.rst with
  | true => simp [decodePorts_rst hrst, Instr.mnemonic]
  | false =>
    have helapsed : (∃ i ∈ elapsedEvents p, i.mnemonic = m) ↔ p.tick1ms = true ∧ "TICK1" = m := by
      simp [mem_elapsedEvents_iff, Instr.mnemonic]
    have hsampling : (∃ i ∈ samplingEvents p, i.mnemonic = m) ↔ p.tickSample = true ∧ "TICKS" = m := by
      simp [mem_samplingEvents_iff, Instr.mnemonic]
    rw [← exists_mnemonic_commandEvents_iff, ← helapsed, ← hsampling, decodePorts_groups hrst]
    simp [or_and_right, exists_or]

/-- A command's mnemonic is carried where its opcode is presented (R46). -/
theorem exists_commandMnemonic_iff {op : Opcode} {m : String} (hop : commandMnemonic op = some m) (p : Ports) :
    (∃ i ∈ decodePorts p, i.mnemonic = m) ↔ p.rst = false ∧ p.cmdValid = true ∧ p.cmdOp = op := by
  have hinj : commandMnemonic p.cmdOp = some m ↔ p.cmdOp = op :=
    ⟨fun h => commandMnemonic_inj op p.cmdOp (by simp [hop]) (h.trans hop.symm), fun h => h ▸ hop⟩
  have hreset : "RESET" ≠ m := fun h => commandMnemonic_ne_event op "RESET" (by decide) (h ▸ hop)
  have htick1 : "TICK1" ≠ m := fun h => commandMnemonic_ne_event op "TICK1" (by decide) (h ▸ hop)
  have hticks : "TICKS" ≠ m := fun h => commandMnemonic_ne_event op "TICKS" (by decide) (h ▸ hop)
  simp [exists_mnemonic_decodePorts_iff, hinj, hreset, htick1, hticks]

theorem exists_reset_iff (p : Ports) : (∃ i ∈ decodePorts p, i.mnemonic = "RESET") ↔ p.rst = true := by
  simp [exists_mnemonic_decodePorts_iff, commandMnemonic_ne_event]

theorem exists_tick1_iff (p : Ports) :
    (∃ i ∈ decodePorts p, i.mnemonic = "TICK1") ↔ p.rst = false ∧ p.tick1ms = true := by
  simp [exists_mnemonic_decodePorts_iff, commandMnemonic_ne_event]

theorem exists_ticks_iff (p : Ports) :
    (∃ i ∈ decodePorts p, i.mnemonic = "TICKS") ↔ p.rst = false ∧ p.tickSample = true := by
  simp [exists_mnemonic_decodePorts_iff, commandMnemonic_ne_event]

/-- Settles O5: row by row, the ports that the mask lets through are those that make the cycle carry the mnemonic. -/
theorem decoderAgreesWithOpcodeTable : Obligations.DecoderAgreesWithOpcodeTable := by
  intro w r hr
  obtain ⟨op, hop, heq⟩ | rfl | rfl | rfl := mem_opcodeTable r hr
  · rw [heq]
    exact (fits_commandRow r.mnemonic op w).trans (exists_commandMnemonic_iff hop (unpack w)).symm
  · exact (fits_resetRow w).trans (exists_reset_iff (unpack w)).symm
  · exact (fits_tick1Row w).trans (exists_tick1_iff (unpack w)).symm
  · exact (fits_ticksRow w).trans (exists_ticks_iff (unpack w)).symm

end Sys2Proof
end

section
/-! PROOFS. The debounce filter over samples and runs (spec/42_debounce.md R94 to R97; spec/10_state.md R25): its bitwise
forms, the invariant of the sample counts, and what a list of samples commits, button by button. -/

namespace Sys2Proof.Machine

/-! ## The bitwise forms (R94, R95)

Each is the lane rule of R92 and R93 read off the four bits of a lane: the raw level, the stable bit and the two count
bits. -/

theorem laneRule_two : ∀ raw stable c0 c1 : Bool,
    (if (raw ^^ stable) = true ∧ 2 * c1.toNat + c0.toNat + 1 ≥ 2 then !stable else stable) =
        (stable ^^ ((raw ^^ stable) && (c0 || c1))) ∧
      (laneNextCount 2 (raw ^^ stable) (2 * c1.toNat + c0.toNat)).testBit 0 = ((raw ^^ stable) && !(c0 || c1)) ∧
      (laneNextCount 2 (raw ^^ stable) (2 * c1.toNat + c0.toNat)).testBit 1 = false := by
  decide

theorem laneRule_three : ∀ raw stable c0 c1 : Bool,
    (if (raw ^^ stable) = true ∧ 2 * c1.toNat + c0.toNat + 1 ≥ 3 then !stable else stable) =
        (stable ^^ ((raw ^^ stable) && c1)) ∧
      (laneNextCount 3 (raw ^^ stable) (2 * c1.toNat + c0.toNat)).testBit 0 = ((raw ^^ stable) && !c1 && !c0) ∧
      (laneNextCount 3 (raw ^^ stable) (2 * c1.toNat + c0.toNat)).testBit 1 = ((raw ^^ stable) && !c1 && c0) := by
  decide

/-- A sampling tick is known from the bits that it leaves for each button. -/
theorem sample_eq_writeFilter {n : Nat} {raw : Buttons} {s : State} {stable cnt0 cnt1 : Buttons}
    (h : ∀ i < 4, (s.sample n raw).stable.getLsbD i = stable.getLsbD i ∧
      (s.sample n raw).cnt0.getLsbD i = cnt0.getLsbD i ∧ (s.sample n raw).cnt1.getLsbD i = cnt1.getLsbD i) :
    s.sample n raw = s.writeFilter stable cnt0 cnt1 := by
  simp only [imp_and, forall_and] at h
  obtain ⟨hstable, hcnt0, hcnt1⟩ := h
  rw [← buttons_ext hstable, ← buttons_ext hcnt0, ← buttons_ext hcnt1]
  rfl

theorem sample_two (s : State) (raw : Buttons) : s.sample 2 raw = s.sampleBitwise2 raw := by
  refine sample_eq_writeFilter fun i hi => ?_
  obtain ⟨hstable, hcnt0, hcnt1⟩ :=
    laneRule_two (raw.getLsbD i) (s.stable.getLsbD i) (s.cnt0.getLsbD i) (s.cnt1.getLsbD i)
  rw [sample_stable_getLsbD 2 raw s hi, sample_cnt0_getLsbD 2 raw s hi, sample_cnt1_getLsbD 2 raw s hi, laneCount,
    hstable, hcnt0, hcnt1]
  simp [hi]

theorem sample_three (s : State) (raw : Buttons) : s.sample 3 raw = s.sampleBitwise3 raw := by
  refine sample_eq_writeFilter fun i hi => ?_
  obtain ⟨hstable, hcnt0, hcnt1⟩ :=
    laneRule_three (raw.getLsbD i) (s.stable.getLsbD i) (s.cnt0.getLsbD i) (s.cnt1.getLsbD i)
  rw [sample_stable_getLsbD 3 raw s hi, sample_cnt0_getLsbD 3 raw s hi, sample_cnt1_getLsbD 3 raw s hi, laneCount,
    hstable, hcnt0, hcnt1]
  simp [hi]

/-! ## The invariant of the sample counts (R25) -/

theorem laneCount_of_cnt1 {cnt0 cnt1 : Buttons} {i : Nat} (h : cnt1.getLsbD i = false) :
    laneCount cnt0 cnt1 i = (cnt0.getLsbD i).toNat := by
  rw [laneCount, h]
  exact Nat.zero_add _

/-- Below the threshold 2 a count has no high bit. -/
theorem countsLegal_iff (s : State) : CountsLegal s ↔ s.cnt1 = 0b0000#4 := by
  constructor
  · intro h
    refine buttons_ext fun i hi => ?_
    have hlt : 2 * (s.cnt1.getLsbD i).toNat + (s.cnt0.getLsbD i).toNat < 2 := h i hi
    rw [BitVec.getLsbD_zero, ← Bool.toNat_eq_zero]
    omega
  · intro h i _
    rw [laneCount_of_cnt1 (by rw [h, BitVec.getLsbD_zero]), debounceN_eq]
    exact Bool.toNat_lt _

/-- TICKS and RESET clear CNT1, and no other operation writes it. -/
theorem execState_countsLegal {s : State} (h : CountsLegal s) (i : Instr) : CountsLegal (execState i s) := by
  rw [countsLegal_iff] at h ⊢
  cases i with
  | ticks raw => exact congrArg State.cnt1 (sample_two s raw)
  | reset => rfl
  | _ => exact h

theorem stepState_countsLegal {s : State} (h : CountsLegal s) : CountsLegal (stepState s) :=
  List.foldlRecOn (decodeCycle s.inputWord) _ (b := s.nextCycle) h fun _ ht i _ => execState_countsLegal ht i

/-! ## Samples from count 0, button by button (R97) -/

section Samples

variable {s : State} {raw : Buttons} {i : Nat}

/-- The two planes hold the count of the lane rule. -/
theorem laneCount_sample_two (h : i < 4) :
    laneCount (s.sample 2 raw).cnt0 (s.sample 2 raw).cnt1 i =
      laneNextCount 2 (raw.getLsbD i ^^ s.stable.getLsbD i) (laneCount s.cnt0 s.cnt1 i) := by
  have hplanes : ∀ ch : Bool, ∀ n < 4,
      2 * ((laneNextCount 2 ch n).testBit 1).toNat + ((laneNextCount 2 ch n).testBit 0).toNat =
        laneNextCount 2 ch n := by
    decide
  rw [laneCount, sample_cnt1_getLsbD 2 raw s h, sample_cnt0_getLsbD 2 raw s h,
    hplanes _ _ (laneCount_lt s.cnt0 s.cnt1 i)]

/-- One qualifying sample after count 0 does not complete a run of two. -/
theorem sample_stable_of_count_zero (h : i < 4) (hcount : laneCount s.cnt0 s.cnt1 i = 0) :
    (s.sample 2 raw).stable.getLsbD i = s.stable.getLsbD i := by
  rw [sample_stable_getLsbD 2 raw s h, hcount]
  exact if_neg fun hcommit => absurd hcommit.2 (by decide)

/-- A sample that agrees with the stable level commits nothing. -/
theorem sample_stable_of_agree (h : i < 4) (hraw : raw.getLsbD i = s.stable.getLsbD i) :
    (s.sample 2 raw).stable.getLsbD i = s.stable.getLsbD i := by
  rw [sample_stable_getLsbD 2 raw s h, hraw, Bool.xor_self]
  exact if_neg fun hcommit => Bool.false_ne_true hcommit.1

/-- A sample that agrees with the stable level takes the count back to 0. -/
theorem sample_count_of_agree (h : i < 4) (hraw : raw.getLsbD i = s.stable.getLsbD i) :
    laneCount (s.sample 2 raw).cnt0 (s.sample 2 raw).cnt1 i = 0 := by
  rw [laneCount_sample_two h, hraw, Bool.xor_self]
  rfl

/-- A qualifying sample after count 0 is the first of its run. -/
theorem sample_count_of_first (h : i < 4) (hcount : laneCount s.cnt0 s.cnt1 i = 0)
    (hraw : raw.getLsbD i ≠ s.stable.getLsbD i) :
    laneCount (s.sample 2 raw).cnt0 (s.sample 2 raw).cnt1 i = 1 := by
  rw [laneCount_sample_two h, hcount, Bool.xor_iff_ne.mpr hraw]
  rfl

/-- The second qualifying sample commits the raw level and ends the run. -/
theorem sample_of_second (h : i < 4) (hcount : laneCount s.cnt0 s.cnt1 i = 1)
    (hraw : raw.getLsbD i ≠ s.stable.getLsbD i) :
    (s.sample 2 raw).stable.getLsbD i = raw.getLsbD i ∧
      laneCount (s.sample 2 raw).cnt0 (s.sample 2 raw).cnt1 i = 0 := by
  have hch : (raw.getLsbD i ^^ s.stable.getLsbD i) = true := Bool.xor_iff_ne.mpr hraw
  refine ⟨sample_stable_getLsbD_of_commit 2 raw s h hch (by rw [hcount]), ?_⟩
  rw [laneCount_sample_two h, hcount, hch]
  rfl

end Samples

/-- Before each sample the count is 0 or the sample agrees with the stable level, so no run of two comes about. -/
theorem sampleRun_stable_of_isChain {raws : List Buttons} {s : State} {i : Nat} {level : Bool} (h : i < 4)
    (hlevel : s.stable.getLsbD i = level)
    (hchain : raws.IsChain fun a b => a.getLsbD i = level ∨ b.getLsbD i = level)
    (hstart : laneCount s.cnt0 s.cnt1 i = 0 ∨ ∀ a ∈ raws.head?, a.getLsbD i = level) :
    (sampleRun raws s).stable.getLsbD i = level := by
  induction raws generalizing s with
  | nil => exact hlevel
  | cons a raws ih =>
    obtain ⟨hnext, hchain⟩ := List.isChain_cons.mp hchain
    have hfirst : laneCount s.cnt0 s.cnt1 i = 0 ∨ a.getLsbD i = s.stable.getLsbD i := by
      rw [hlevel]
      exact hstart.imp_right fun hhead => hhead a rfl
    have hkeep : (s.sample 2 a).stable.getLsbD i = s.stable.getLsbD i :=
      hfirst.elim (sample_stable_of_count_zero h) (sample_stable_of_agree h)
    refine ih (s := s.sample 2 a) (hkeep.trans hlevel) hchain ?_
    by_cases hagree : a.getLsbD i = level
    · exact .inl (sample_count_of_agree h (hagree.trans hlevel.symm))
    · exact .inr fun b hb => (hnext b hb).resolve_left hagree

theorem sampleRun_two {a b : Buttons} {s : State} {i : Nat} (h : i < 4) (hcount : laneCount s.cnt0 s.cnt1 i = 0)
    (ha : a.getLsbD i ≠ s.stable.getLsbD i) (hb : b.getLsbD i ≠ s.stable.getLsbD i) :
    (sampleRun [a, b] s).stable.getLsbD i = b.getLsbD i ∧
      laneCount (sampleRun [a, b] s).cnt0 (sampleRun [a, b] s).cnt1 i = 0 := by
  have hb : b.getLsbD i ≠ (s.sample 2 a).stable.getLsbD i := by rwa [sample_stable_of_count_zero h hcount]
  exact sample_of_second h (sample_count_of_first h hcount ha) hb

/-! ## The obligations -/

/-- Settles O46: TICKS and RESET leave legal counts from any state, and the other operations of a cycle leave the counts
as they are. -/
theorem stepKeepsCountsLegal : Obligations.StepKeepsCountsLegal := by
  intro s t hlegal hstep
  rw [step_eq_next_iff] at hstep
  subst hstep
  exact stepState_countsLegal hlegal

/-- Settles O41: the lane rule with the threshold 2, bit by bit. -/
theorem bitwiseFormForTwo : Obligations.BitwiseFormForTwo := by
  refine fun s raw => ⟨sample_two s raw, ?_⟩
  rw [exec_ticks, sample_two]

/-- Settles O42: the lane rule with the threshold 3, bit by bit. -/
theorem bitwiseFormForThree : Obligations.BitwiseFormForThree := sample_three

/-- Settles O44: of two neighbouring samples one agrees with the stable level and takes the count back to 0. -/
theorem noTwoNeighboursNoCommit : Obligations.NoTwoNeighboursNoCommit :=
  fun _ _ _ hi hcount hchain => sampleRun_stable_of_isChain hi rfl hchain (.inl hcount)

/-- Settles O45: the first qualifying sample counts 1, the second commits and counts 0, and from count 0 no single sample
commits. -/
theorem twoQualifyingSamplesCommit : Obligations.TwoQualifyingSamplesCommit := by
  intro a b c s i hi hcount ha hb
  obtain ⟨hcommit, hzero⟩ := sampleRun_two hi hcount ha hb
  exact ⟨sample_stable_of_count_zero hi hcount, hcommit, hzero,
    (sample_stable_of_count_zero (s := sampleRun [a, b] s) hi hzero).trans hcommit⟩

/-- Settles O47: reset clears both planes, and a legal count has no high bit. -/
theorem resetCountsAreLegal : Obligations.ResetCountsAreLegal := by
  refine ⟨(countsLegal_iff State.reset).mpr rfl, fun s => ?_⟩
  rw [countsLegal_iff]
  exact ⟨fun h => ⟨h, fun i _ => laneCount_of_cnt1 (by rw [h, BitVec.getLsbD_zero])⟩, And.left⟩

end Sys2Proof.Machine
end

section
/-! PROOFS. The edge in its two forms (spec/20_memory.md R37): the groups of a cycle run one after another, and every
register written at once. The command group alone is `commandState`; the tick groups around it write ET and the filter,
which of the commands ETC alone touches. -/

namespace Sys2Proof.Machine

/-! ## The command group at once -/

/-- The registers after the command group: what `edgeNext` says of the commands, without the ticks. -/
def commandState (p : Ports) (s : State) : State :=
  let cmd := fun op : Opcode => p.cmdValid && p.cmdOp == op
  { s with
    lfsr :=
      if cmd 0x1#4 then (s.lfsr >>> 1) ^^^ (if s.lfsr.getLsbD 0 then Config.lfsrMask else 0#32)
      else if cmd 0x2#4 then s.start
      else s.lfsr
    start :=
      if cmd 0x3#4 then p.cmdData
      else if cmd 0x5#4 && s.seedp then s.pseed
      else if cmd 0x6#4 then s.lfsr
      else s.start
    pseed := if cmd 0x4#4 then p.cmdData else s.pseed
    seedp := if cmd 0x4#4 then true else if cmd 0x5#4 then false else s.seedp
    et := if cmd 0x8#4 then 0#16 else s.et
    cur := if cmd 0x9#4 then s.stable else s.cur
    prev := if cmd 0x9#4 then s.cur else s.prev }

theorem opcode_cases : ∀ op : Opcode,
    op = 0x0#4 ∨ op = 0x1#4 ∨ op = 0x2#4 ∨ op = 0x3#4 ∨ op = 0x4#4 ∨ op = 0x5#4 ∨ op = 0x6#4 ∨ op = 0x7#4 ∨
      op = 0x8#4 ∨ op = 0x9#4 ∨ op = 0xA#4 ∨ op = 0xB#4 ∨ op = 0xC#4 ∨ op = 0xD#4 ∨ op = 0xE#4 ∨ op = 0xF#4 := by
  decide

/-- The command of a cycle, opcode by opcode (R46, R49). -/
theorem foldl_commandEvents (p : Ports) (s : State) :
    (commandEvents p).foldl (fun t i => execState i t) s = commandState p s := by
  obtain ⟨rst, tick1ms, tickSample, btnRaw, cmdValid, op, data⟩ := p
  cases cmdValid with
  | false => rfl
  | true =>
    obtain rfl | rfl | rfl | rfl | rfl | rfl | rfl | rfl | rfl | rfl | rfl | rfl | rfl | rfl | rfl | rfl :=
      opcode_cases op
    -- ADV, whose mask the two forms write differently
    case inr.inl => exact congrArg s.writeLfsr (advance_eq_xor Config.lfsrMask s.lfsr)
    all_goals rfl

/-! ## The edge -/

/-- The tick groups around the command write what they write at once: the command group neither reads ET nor writes the
filter, and ETC clears the count with its tick. -/
theorem samplingState_commandState {p : Ports} (hrst : p.rst = false) (s : State) :
    samplingState p (commandState p (elapsedState p s)) = edgeNext p s := by
  obtain ⟨rst, tick1ms, tickSample, btnRaw, cmdValid, op, data⟩ := p
  obtain rfl : rst = false := hrst
  cases tickSample with
  | false => cases tick1ms <;> rfl
  | true =>
    refine (sample_two _ btnRaw).trans ?_
    cases tick1ms <;> rfl

theorem step_eq_edgeNext (s : State) : step s = .next (edgeNext (unpack s.inputWord) s.nextCycle) := by
  cases hrst : (unpack s.inputWord).rst with
  | true =>
    rw [step_of_rst hrst, edgeNext, hrst, if_pos rfl]
    rfl
  | false => rw [step_of_rst_false rfl hrst, foldl_commandEvents, samplingState_commandState hrst]

theorem step_driveInput_eq_edgeNext (p : Ports) (s : State) :
    step (s.driveInput (pack p)) = .next (edgeNext p s.nextCycle) := by
  rw [step_eq_edgeNext, driveInput_inputWord, unpack_pack, driveInput_nextCycle]

/-! ## What a group of the cycle has no part in (R44) -/

section Groups

variable {p : Ports} (hrst : p.rst = false) (s : State)
include hrst

/-- The ticks have no part in the generator and the snapshots. -/
theorem edgeNext_without_ticks :
    edgeNext { p with tick1ms := false, tickSample := false } s =
      { edgeNext p s with
        et := (edgeNext { p with tick1ms := false } s).et, stable := s.stable, cnt0 := s.cnt0, cnt1 := s.cnt1 } := by
  simp [edgeNext, hrst]

/-- The other groups have no part in the filter. -/
theorem edgeNext_sampling_alone :
    edgeNext { p with tick1ms := false, cmdValid := false } s =
      { s with stable := (edgeNext p s).stable, cnt0 := (edgeNext p s).cnt0, cnt1 := (edgeNext p s).cnt1 } := by
  simp [edgeNext, hrst]

/-- Of the other groups ETC alone has a part in ET. -/
theorem edgeNext_elapsed_alone (hetc : ¬ (p.cmdValid = true ∧ p.cmdOp = 0x8#4)) :
    edgeNext { p with tickSample := false, cmdValid := false } s = { s with et := (edgeNext p s).et } := by
  have hcmd : (p.cmdValid && p.cmdOp == 0x8#4) = false := by
    rwa [Bool.eq_false_iff, ne_eq, Bool.and_eq_true, beq_iff_eq]
  simp [edgeNext, hrst, hcmd]

end Groups

/-! ## The obligations -/

/-- Settles O14: the command group is its registers written at once, and the tick groups write ET and the filter beside
it. -/
theorem stepIsTheSimultaneousEdge : Obligations.StepIsTheSimultaneousEdge := step_eq_edgeNext

/-- Settles O16: register by register of the simultaneous edge, with the ports of the other groups taken back. -/
theorem groupsActIndependently : Obligations.GroupsActIndependently := by
  intro s hrst
  refine ⟨_, _, _, _, step_eq_edgeNext s, step_driveInput_eq_edgeNext _ s, step_driveInput_eq_edgeNext _ s,
    step_driveInput_eq_edgeNext _ s, ?_⟩
  rw [edgeNext_without_ticks hrst, edgeNext_sampling_alone hrst]
  refine ⟨rfl, rfl, rfl, rfl, rfl, rfl, rfl, rfl, rfl, ?_⟩
  by_cases hetc : (unpack s.inputWord).cmdValid = true ∧ (unpack s.inputWord).cmdOp = 0x8#4
  · exact .inl ⟨hrst, hetc⟩
  · exact .inr (congrArg State.et (edgeNext_elapsed_alone hrst s.nextCycle hetc)).symm

/-- Settles O15: no operation touches the two fields, and a run answers the fold of its cycles. -/
theorem stepsTakeOneWordInOrder : Obligations.StepsTakeOneWordInOrder := by
  constructor
  · intro s t hstep
    rw [step_eq_next_iff] at hstep
    subst hstep
    exact ⟨foldl_execState_inputs _ _, foldl_execState_cycle _ _⟩
  · intro ws vs s t u hfirst hsecond
    rw [runInputs_eq_next, Host.Outcome.next.injEq] at hfirst
    subst hfirst
    rw [runInputs_append]
    exact hsecond

end Sys2Proof.Machine
end

section
/-! PROOFS. A run as the list of the operations that its words carry (spec/20_memory.md R36, R37): what a run leaves is
the fold of these operations, so a claim about runs is one about lists of operations. -/

namespace Sys2Proof

/-- The operations of a run, in the order they act. -/
def runEventsOf (ws : List InputWord) : List Instr := ws.flatMap decodeCycle

@[simp] theorem runEventsOf_cons (w : InputWord) (ws : List InputWord) :
    runEventsOf (w :: ws) = decodeCycle w ++ runEventsOf ws := List.flatMap_cons

@[simp] theorem runEventsOf_encode_cons (i : Instr) (ws : List InputWord) :
    runEventsOf (encode i :: ws) = i :: runEventsOf ws := by
  rw [runEventsOf_cons, decodeCycle_encode, List.singleton_append]

theorem mem_runEventsOf {ws : List InputWord} {i : Instr} : i ∈ runEventsOf ws ↔ ∃ w ∈ ws, i ∈ decodeCycle w :=
  List.mem_flatMap

/-- The canonical words of operations carry these operations. -/
@[simp] theorem runEventsOf_encode (is : List Instr) : runEventsOf (is.map encode) = is := by
  induction is with
  | nil => rfl
  | cons i is ih => rw [List.map_cons, runEventsOf_encode_cons, ih]

/-- A word carries an operation at most once (R45). -/
theorem decodeCycle_nodup (w : InputWord) : (decodeCycle w).Nodup := by
  rw [decodeCycle]
  cases hrst : (unpack w).rst with
  | true =>
    rw [decodePorts_rst hrst]
    exact List.nodup_singleton _
  | false =>
    refine (decodePorts_pairwise hrst).imp fun hlt heq => ?_
    rw [heq] at hlt
    exact lt_irrefl _ hlt

end Sys2Proof

namespace Sys2Proof.Machine

/-- Words that carry an operation are as many as its occurrences in the run. -/
theorem count_runEventsOf (i : Instr) (ws : List InputWord) : (runEventsOf ws).count i = countCarrying i ws := by
  induction ws with
  | nil => rfl
  | cons w ws ih =>
    rw [runEventsOf_cons, List.count_append, ih, (decodeCycle_nodup w).count, countCarrying, countCarrying,
      List.countP_cons, Nat.add_comm]
    simp [carries]

theorem forall_ne_of_carries {i : Instr} {ws : List InputWord} (h : ∀ w ∈ ws, carries i w = false) :
    ∀ j ∈ runEventsOf ws, j ≠ i := by
  intro j hj
  obtain ⟨w, hw, hmem⟩ := mem_runEventsOf.mp hj
  exact ne_of_carries_eq_false (h w hw) hmem

theorem mnemonic_ne_of_carriesNamed {m : String} {w : InputWord} {i : Instr} (h : carriesNamed m w = false)
    (hi : i ∈ decodeCycle w) : i.mnemonic ≠ m :=
  fun heq => absurd (beq_iff_eq.mpr heq) (List.any_eq_false.mp h i hi)

/-- Operations act on the registers alone, whatever the two fields of the ports hold. -/
theorem foldl_execState_withPorts (is : List Instr) (s : State) (inputs : List InputWord) (n : Nat) :
    is.foldl (fun t i => execState i t) { s with inputs := inputs, cycle := n } =
      { is.foldl (fun t i => execState i t) s with inputs := inputs, cycle := n } :=
  List.foldl_hom (fun t : State => { t with inputs := inputs, cycle := n }) fun t i => by cases i <;> rfl

/-- What a run leaves: its operations act on the registers, and the ports have moved on. -/
theorem runInputs_eq_events (ws : List InputWord) (s : State) :
    runInputs ws s = .next
      { (runEventsOf ws).foldl (fun t i => execState i t) s with inputs := [], cycle := s.cycle + ws.length } := by
  induction ws generalizing s with
  | nil => rfl
  | cons w ws ih =>
    have hcycle : cycleState w s =
        { (decodeCycle w).foldl (fun t i => execState i t) s with inputs := [], cycle := s.cycle + 1 } :=
      foldl_execState_withPorts _ s _ _
    rw [runInputs_cons, ih, hcycle, foldl_execState_withPorts, runEventsOf_cons, List.foldl_append, List.length_cons,
      Nat.add_comm ws.length 1, ← Nat.add_assoc]

/-- A cycle of a run with the canonical word of an operation is this operation. -/
theorem cycleState_encode (i : Instr) (s : State) :
    cycleState (encode i) s = execState i { s with inputs := [], cycle := s.cycle + 1 } := by
  rw [cycleState, decodeCycle_encode]
  rfl

/-- A run over the canonical words of operations, one a cycle. -/
theorem runInputs_encode (is : List Instr) (s : State) :
    runInputs (is.map encode) s = .next
      { is.foldl (fun t i => execState i t) s with inputs := [], cycle := s.cycle + is.length } := by
  rw [runInputs_eq_events, runEventsOf_encode, List.length_map]

end Sys2Proof.Machine
end

section
/-! PROOFS. The generator over runs (spec/40_lfsr.md section 3; spec/70_reset_and_hazards.md R146, R153): the algebra of
the advance, replay from START, the zero state, seeds that wait, and the pseudo-operations. -/

namespace Sys2Proof.Machine

/-! ## The advance (R61, R70) -/

/-- The digit after an advance, from the state before it. -/
theorem digitOf_advance (mask lfsr : Word) :
    digitOf (advance mask lfsr) = lfsr.extractLsb' 1 2 ^^^ (if lfsr.getLsbD 0 then mask.extractLsb' 0 2 else 0#2) := by
  refine BitVec.eq_of_getLsbD_eq fun i hi => ?_
  have hdigit : (digitOf (advance mask lfsr)).getLsbD i = (advance mask lfsr).getLsbD i := by simp [digitOf, hi]
  rw [hdigit, advance_getLsbD]
  cases lfsr.getLsbD 0 <;> simp [hi, Nat.add_comm]

/-- Bit 31 after the advance tells which bit was shifted out, and the other bits the rest. -/
theorem advance_injective {mask : Word} (hmask : mask.getLsbD 31 = true) : Function.Injective (advance mask) := by
  intro x y heq
  have hbit (i : Nat) : (advance mask x).getLsbD i = (advance mask y).getLsbD i := by rw [heq]
  have hzero : x.getLsbD 0 = y.getLsbD 0 := by
    have htop := hbit 31
    rwa [advance_getLsbD_top, advance_getLsbD_top, hmask, Bool.and_true, Bool.and_true] at htop
  refine BitVec.eq_of_getLsbD_eq fun i _ => ?_
  cases i with
  | zero => exact hzero
  | succ i =>
    have hnext := hbit i
    rwa [advance_getLsbD, advance_getLsbD, hzero, Bool.xor_left_inj] at hnext

/-- With the top mask bit 0 a zero always enters at the top. -/
theorem advance_ne_of_top {mask x : Word} (hmask : mask.getLsbD 31 = false) (hx : x.getLsbD 31 = true) :
    ¬ ∃ y, advance mask y = x := by
  rintro ⟨y, rfl⟩
  rw [advance_getLsbD_top, hmask, Bool.and_false] at hx
  exact Bool.false_ne_true hx

theorem advance_bijective_iff (mask : Word) : Function.Bijective (advance mask) ↔ mask.getLsbD 31 = true := by
  constructor
  · rintro ⟨_, hsurjective⟩
    by_contra hmask
    exact advance_ne_of_top (Bool.eq_false_iff.mpr hmask) (x := 0x80000000#32) (by decide) (hsurjective _)
  · exact fun hmask => Finite.injective_iff_bijective.mp (advance_injective hmask)

/-- Injective advances keep what is not 0 away from 0, their fixed point. -/
theorem iterate_advance_ne_zero {mask x : Word} (hmask : mask.getLsbD 31 = true) (hx : x ≠ 0#32) (n : Nat) :
    (advance mask)^[n] x ≠ 0#32 := by
  rw [← iterate_advance_zero mask n]
  exact ((advance_injective hmask).iterate n).ne hx

/-! ## Replay (R69) -/

/-- Without RTS and RESET the generator's state advances once for every ADV. -/
theorem foldl_execState_lfsr {is : List Instr} (hrts : ∀ i ∈ is, i ≠ .rts) (hreset : ∀ i ∈ is, i ≠ .reset)
    (s : State) :
    (is.foldl (fun t i => execState i t) s).lfsr = (advance Config.lfsrMask)^[is.count .adv] s.lfsr := by
  induction is generalizing s with
  | nil => rfl
  | cons i is ih =>
    obtain ⟨hirts, hrts⟩ := List.forall_mem_cons.mp hrts
    obtain ⟨hireset, hreset⟩ := List.forall_mem_cons.mp hreset
    rw [List.foldl_cons, ih hrts hreset]
    by_cases hadv : i = .adv
    · rw [hadv, List.count_cons_self, Function.iterate_succ_apply]
      rfl
    · rw [List.count_cons_of_ne hadv, execState_lfsr_of_ne hadv hirts hireset]

/-- RSD, SAP, CAP and RESET are the writers of START (R21). -/
theorem execState_start_of_ne {i : Instr} (hrsd : i.mnemonic ≠ "RSD") (hsap : i ≠ .sap) (hcap : i ≠ .cap)
    (hreset : i ≠ .reset) (s : State) : (execState i s).start = s.start := by
  cases i with
  | rsd => exact absurd rfl hrsd
  | sap => exact absurd rfl hsap
  | cap => exact absurd rfl hcap
  | reset => exact absurd rfl hreset
  | _ => rfl

/-! ## The zero state (R69 c, R146) -/

/-- LFSR and START are 0 and no seed waits. -/
def ZeroState (s : State) : Prop := s.lfsr = 0#32 ∧ s.start = 0#32 ∧ s.seedp = false

/-- Zero is a fixed point of the advance, RTS and CAP copy it, and SAP finds nothing pending. -/
theorem ZeroState.execState {s : State} (h : ZeroState s) {i : Instr} (hreset : i ≠ .reset)
    (hrsd : i.mnemonic ≠ "RSD") (hsrq : i.mnemonic ≠ "SRQ") : ZeroState (execState i s) := by
  obtain ⟨hlfsr, hstart, hseedp⟩ := h
  cases i with
  | reset => exact absurd rfl hreset
  | rsd => exact absurd rfl hrsd
  | srq => exact absurd rfl hsrq
  | adv => exact ⟨by rw [Machine.execState, hlfsr, advance_zero]; rfl, hstart, hseedp⟩
  | rts => exact ⟨hstart, hstart, hseedp⟩
  | cap => exact ⟨hlfsr, hlfsr, hseedp⟩
  | sap => exact ⟨hlfsr, by simp [Machine.execState, hseedp, hstart], rfl⟩
  | _ => exact ⟨hlfsr, hstart, hseedp⟩

/-! ## The obligations -/

/-- Settles O22: the two low bits of the shifted state, with the mask's where it applies. -/
theorem digitOfAnAdvanceFromTheOldState : Obligations.DigitOfAnAdvanceFromTheOldState := by
  intro s t h
  rw [exec_eq_next_iff] at h
  subst h
  exact digitOf_advance Config.lfsrMask s.lfsr

/-- Settles O30: with the top mask bit 1 the advance is injective on finitely many words, with the bit 0 it misses every
word with bit 31 set. -/
theorem advanceIsBijectiveExactlyWithTopMaskBit : Obligations.AdvanceIsBijectiveExactlyWithTopMaskBit := by
  refine fun mask => ⟨advance_zero mask, advance_bijective_iff mask, fun hmask x => advance_ne_of_top hmask,
    fun y hy => ?_⟩
  rw [digitOf_advance, hy]
  simp [digitOf]

/-- Settles O31: an injective advance with the fixed point 0. -/
theorem nonZeroStateNeverDiesOut : Obligations.NonZeroStateNeverDiesOut :=
  fun _ _ n hmask hx => iterate_advance_ne_zero hmask hx n

/-- Settles O32: after the RTS the run's operations advance LFSR once per ADV, and START has no writer among them. -/
theorem replayIsDeterministic : Obligations.ReplayIsDeterministic := by
  intro ws s h
  have hrts : ∀ i ∈ runEventsOf ws, i ≠ .rts := forall_ne_of_carries fun w hw => (h w hw).2
  have hreset : ∀ i ∈ runEventsOf ws, i ≠ .reset := forall_ne_of_carries fun w hw => (h w hw).1
  rw [runInputs_eq_events, runEventsOf_encode_cons, List.foldl_cons]
  refine ⟨_, rfl, ?_, fun hstart => ?_⟩
  · rw [← count_runEventsOf]
    exact foldl_execState_lfsr hrts hreset (execState .rts s)
  · refine List.foldlRecOn (motive := fun t : State => t.start = s.start) (runEventsOf ws) _ rfl fun t ht i hi => ?_
    obtain ⟨w, hw, hmem⟩ := mem_runEventsOf.mp hi
    obtain ⟨hrsd, hsap, hcap⟩ := hstart w hw
    have hkeep : (execState i t).start = t.start :=
      execState_start_of_ne (mnemonic_ne_of_carriesNamed hrsd hmem) (ne_of_carries_eq_false hsap hmem)
        (ne_of_carries_eq_false hcap hmem) (hreset i hi) t
    exact hkeep.trans ht

/-- Settles O33: no operation that such a run carries brings a seed into the zero state. -/
theorem zeroStateStaysZero : Obligations.ZeroStateStaysZero := by
  intro ws s hlfsr hstart hseedp h
  obtain ⟨t, hrun, hlfsr', hstart', _⟩ := runInputs_invariant (P := ZeroState) (ws := ws) (s := s)
    (fun _ _ _ ht => ht)
    (fun w hw i hi t ht => by
      obtain ⟨hreset, hrsd, hsrq⟩ := h w hw
      exact ht.execState (ne_of_carries_eq_false hreset hi) (mnemonic_ne_of_carriesNamed hrsd hi)
        (mnemonic_ne_of_carriesNamed hsrq hi))
    ⟨hlfsr, hstart, hseedp⟩
  refine ⟨t, hrun, hlfsr', hstart', ?_⟩
  change digitOf t.lfsr = 0#2
  rw [hlfsr']
  rfl

end Sys2Proof.Machine
end

section
/-! PROOFS. Short runs written out (spec/30_encoding.md R54; spec/70_reset_and_hazards.md R153; spec/20_memory.md
section 1; spec/10_state.md R25): the pseudo-operations, seeds that wait, commands given twice, and a run
to every combination of values. -/

namespace Sys2Proof

/-! ## Trace lines (R53, R54) -/

theorem runEventsOf_wait (n : Nat) : runEventsOf ((PseudoOp.wait n).expand.map TraceLine.word) = [] := by
  induction n with
  | zero => rfl
  | succ n ih => exact ih

theorem runEventsOf_ticks (n : Nat) :
    runEventsOf ((PseudoOp.ticks n).expand.map TraceLine.word) = List.replicate n .tick1 := by
  induction n with
  | zero => rfl
  | succ n ih => exact congrArg (Instr.tick1 :: ·) ih

end Sys2Proof

namespace Sys2Proof.Machine

theorem add_one_add_ofNat (et : TickCount) (n : Nat) :
    et + 1#16 + BitVec.ofNat 16 n = et + BitVec.ofNat 16 (n + 1) := by
  rw [Nat.add_comm n 1, BitVec.ofNat_add, BitVec.add_assoc]

theorem foldl_execState_tick1 (n : Nat) (s : State) :
    (List.replicate n .tick1).foldl (fun t i => execState i t) s = { s with et := s.et + BitVec.ofNat 16 n } := by
  induction n generalizing s with
  | zero => rw [List.replicate_zero, List.foldl_nil, BitVec.add_zero]
  | succ n ih =>
    rw [List.replicate_succ, List.foldl_cons, ih, ← add_one_add_ofNat]
    rfl

/-- Settles O35: a command line is the canonical word of its command, an idle line carries nothing, and a `T1` line
TICK1 alone. -/
theorem pseudoOperationsRun : Obligations.PseudoOperationsRun := by
  intro s
  refine ⟨runInputs_encode [.sap, .rts] s, runInputs_encode [.rts] s, runInputs_encode [.adv, .etc] s,
    runInputs_encode [.cap] s, fun v => runInputs_encode [.srq v] s, fun n => ?_, fun n => ?_⟩
  · rw [runInputs_eq_events, runEventsOf_wait]
    simp [PseudoOp.expand]
  · rw [runInputs_eq_events, runEventsOf_ticks, foldl_execState_tick1]
    simp [PseudoOp.expand]

/-- Settles O34: none of the four commands writes LFSR and SRQ does not write START; the three short runs are evaluated
operation by operation. -/
theorem seedsTakeEffectLater : Obligations.SeedsTakeEffectLater := by
  refine ⟨fun i s t hi h => ?_, fun a s t h => ?_, fun a s => ?_, fun a b s => ?_, fun a s => ?_⟩
  · rw [exec_eq_next_iff] at h
    subst h
    have hwriters : ∀ m ∈ ["RSD", "CAP", "SAP", "SRQ"], m ∉ ["ADV", "RTS", "RESET"] := by decide
    exact execState_lfsr_of_not_writer (hwriters _ hi)
  · rw [exec_eq_next_iff] at h
    subst h
    rfl
  · exact ⟨_, runInputs_encode [.sap, .srq a, .rts] s, rfl, rfl, rfl, rfl⟩
  · exact ⟨_, runInputs_encode [.srq a, .srq b, .sap] s, rfl, rfl, rfl⟩
  · exact ⟨_, runInputs_encode [.srq a, .cap, .sap, .rts] s, rfl, rfl⟩

theorem advance_two (mask : Word) : advance mask 2#32 = 1#32 := by simp [advance_eq_xor]

/-- Settles O29: RTS, RSD, SRQ, CAP and ETC read nothing that they write, and a first SAP leaves no seed pending; POLL
moves CUR on to PREV, and ADV takes 4 to 2 and 2 to 1 under every mask. -/
theorem idempotentCommands : Obligations.IdempotentCommands := by
  refine ⟨fun i s t hi h => ?_, ?_, ?_⟩
  · rw [exec_eq_next_iff] at h ⊢
    subst h
    cases i with
    | rts | rsd | srq | cap | etc | sap => rfl
    | _ => simp [Instr.mnemonic] at hi
  · refine ⟨{ State.reset with stable := 0b0000#4 }, _, _, rfl, rfl, fun h => ?_⟩
    exact absurd (congrArg State.prev h) (by decide)
  · refine ⟨{ State.reset with lfsr := 4#32 }, _, _, exec_adv _, exec_adv _, fun h => ?_⟩
    have hlfsr : advance Config.lfsrMask (advance Config.lfsrMask 4#32) = advance Config.lfsrMask 4#32 :=
      congrArg State.lfsr h
    rw [advance_four, advance_two] at hlfsr
    exact absurd hlfsr (by decide)

/-! ## Reachability (R25) -/

/-- From count 0 two samples of the same levels make them the stable levels. -/
theorem sample_sample (s : State) (raw : Buttons) (hcnt0 : s.cnt0 = 0b0000#4) (hcnt1 : s.cnt1 = 0b0000#4) :
    (s.sample 2 raw).sample 2 raw = { s with stable := raw } := by
  have hall (x : Buttons) : x &&& 0b1111#4 = x := BitVec.and_allOnes
  have hraw : s.stable ^^^ (raw ^^^ s.stable) = raw := by
    rw [BitVec.xor_comm raw, ← BitVec.xor_assoc, BitVec.xor_self, BitVec.zero_xor]
  simp [sample_two, State.sampleBitwise2, State.writeFilter, hcnt0, hcnt1, hall, hraw]

/-- A run to the given values: LFSR by RSD and RTS and then START by RSD; the levels of PREV, CUR and STABLE one after
another by two samples each, with a POLL between them. -/
def reachingRun (lfsr start : Word) (stable cur prev : Buttons) : List Instr :=
  [.rsd lfsr, .rts, .rsd start, .ticks prev, .ticks prev, .poll, .ticks cur, .ticks cur, .poll, .ticks stable,
    .ticks stable]

theorem foldl_reachingRun (lfsr start : Word) (stable cur prev : Buttons) :
    (reachingRun lfsr start stable cur prev).foldl (fun t i => execState i t) State.reset =
      { State.reset with lfsr := lfsr, start := start, stable := stable, cur := cur, prev := prev } := by
  simp only [reachingRun, List.foldl_cons, List.foldl_nil, execState]
  -- the side goals are the counts, 0 before each pair of samples
  rw [sample_sample _ prev, sample_sample _ cur, sample_sample _ stable] <;> rfl

/-- Settles O58: the run that brings the five registers to the given values one after another. -/
theorem anyCombinationIsReachable : Obligations.AnyCombinationIsReachable := by
  intro lfsr start stable cur prev
  refine ⟨(reachingRun lfsr start stable cur prev).map encode, _, runInputs_encode _ _, ?_⟩
  rw [foldl_reachingRun]
  exact ⟨rfl, rfl, rfl, rfl, rfl⟩

end Sys2Proof.Machine
end

section
/-! PROOFS. Elapsed time and the filter over runs (spec/41_elapsed_time.md R84; spec/42_debounce.md R90, R97;
spec/70_reset_and_hazards.md R155): of the operations of a run TICK1 alone advances ET, and TICKS alone moves the
filter. -/

namespace Sys2Proof.Machine

/-! ## The count of ticks (R84) -/

/-- TICK1, ETC and RESET are the writers of ET (R21). -/
theorem execState_et_of_ne {i : Instr} (htick : i ≠ .tick1) (hetc : i ≠ .etc) (hreset : i ≠ .reset) (s : State) :
    (execState i s).et = s.et := by
  cases i with
  | tick1 => exact absurd rfl htick
  | etc => exact absurd rfl hetc
  | reset => exact absurd rfl hreset
  | _ => rfl

/-- Without ETC and RESET the counter grows by one for every TICK1. -/
theorem foldl_execState_et {is : List Instr} (hetc : ∀ i ∈ is, i ≠ .etc) (hreset : ∀ i ∈ is, i ≠ .reset) (s : State) :
    (is.foldl (fun t i => execState i t) s).et = s.et + BitVec.ofNat 16 (is.count .tick1) := by
  induction is generalizing s with
  | nil => exact (BitVec.add_zero s.et).symm
  | cons i is ih =>
    obtain ⟨hietc, hetc⟩ := List.forall_mem_cons.mp hetc
    obtain ⟨hireset, hreset⟩ := List.forall_mem_cons.mp hreset
    rw [List.foldl_cons, ih hetc hreset]
    by_cases htick : i = .tick1
    · rw [htick, List.count_cons_self, ← add_one_add_ofNat]
      rfl
    · rw [List.count_cons_of_ne htick, execState_et_of_ne htick hietc hireset]

/-- The counter over a run whose words carry neither ETC nor RESET. -/
theorem runInputs_et {ws : List InputWord} (h : ∀ w ∈ ws, carries .reset w = false ∧ carries .etc w = false)
    (s : State) : ∃ t, runInputs ws s = .next t ∧ t.et = s.et + BitVec.ofNat 16 (countCarrying .tick1 ws) := by
  refine ⟨_, runInputs_eq_events ws s, ?_⟩
  rw [← count_runEventsOf]
  exact foldl_execState_et (forall_ne_of_carries fun w hw => (h w hw).2) (forall_ne_of_carries fun w hw => (h w hw).1) s

/-- Settles O38: from the cleared counter a run shows its number of ticks modulo 65536. -/
theorem elapsedTimeCountsTicks : Obligations.ElapsedTimeCountsTicks := by
  refine ⟨fun ws s h => runInputs_et h s, fun ws s T h hT => ?_⟩
  obtain ⟨t, hrun, het⟩ := runInputs_et h (cycleState (encode .etc) s)
  refine ⟨t, (runInputs_cons _ _ s).trans hrun, ?_⟩
  have helapsed : t.outputs.elapsed.toNat = countCarrying .tick1 ws % 65536 := by
    change t.et.toNat = _
    rw [het, cycleState_encode, execState, State.writeEt_et, BitVec.zero_add, BitVec.toNat_ofNat]
  rw [helapsed]
  omega

/-! ## The samples of a run (R90, R97) -/

/-- The raw levels that an operation brings to the filter. -/
def rawOf : Instr → Option Buttons
  | .ticks raw => some raw
  | _ => none

theorem rawOf_eq_none {i : Instr} (h : i.group ≠ .sampling) : rawOf i = none := by
  cases i with
  | ticks => exact absurd rfl h
  | _ => rfl

theorem filterMap_rawOf_eq_nil {is : List Instr} {g : EventGroup} (hgroup : ∀ {i}, i ∈ is → i.group = g)
    (hg : g ≠ .sampling) : is.filterMap rawOf = [] :=
  List.filterMap_eq_nil_iff.mpr fun _ hi => rawOf_eq_none (hgroup hi ▸ hg)

/-- A word brings the levels of its sampling group, if that fires without reset. -/
theorem filterMap_rawOf_decodeCycle (w : InputWord) :
    (decodeCycle w).filterMap rawOf =
      if !(unpack w).rst && (unpack w).tickSample then [(unpack w).btnRaw] else [] := by
  rw [decodeCycle]
  cases hrst : (unpack w).rst with
  | true => rw [decodePorts_rst hrst]; rfl
  | false =>
    rw [decodePorts_groups hrst, List.filterMap_append, List.filterMap_append,
      filterMap_rawOf_eq_nil group_of_mem_elapsedEvents (by decide),
      filterMap_rawOf_eq_nil group_of_mem_commandEvents (by decide), samplingEvents]
    cases (unpack w).tickSample <;> rfl

theorem filterMap_rawOf_runEventsOf (ws : List InputWord) : (runEventsOf ws).filterMap rawOf = samplesOf ws := by
  induction ws with
  | nil => rfl
  | cons w ws ih =>
    rw [runEventsOf_cons, List.filterMap_append, ih, filterMap_rawOf_decodeCycle, samplesOf, samplesOf,
      List.filterMap_cons]
    cases hsample : !(unpack w).rst && (unpack w).tickSample <;> simp only [hsample] <;> rfl

/-- A run of samples reads and writes the three registers alone. -/
theorem filterRegisters_sampleRun_congr (raws : List Buttons) {s t : State}
    (h : s.filterRegisters = t.filterRegisters) :
    (sampleRun raws s).filterRegisters = (sampleRun raws t).filterRegisters := by
  induction raws generalizing s t with
  | nil => exact h
  | cons raw raws ih => exact ih (filterRegisters_sample_congr 2 raw h)

/-- Without RESET the operations of a run move the filter by their samples alone. -/
theorem filterRegisters_foldl_execState {is : List Instr} (hreset : ∀ i ∈ is, i ≠ .reset) (s : State) :
    (is.foldl (fun t i => execState i t) s).filterRegisters = (sampleRun (is.filterMap rawOf) s).filterRegisters := by
  induction is generalizing s with
  | nil => rfl
  | cons i is ih =>
    obtain ⟨hireset, hreset⟩ := List.forall_mem_cons.mp hreset
    rw [List.foldl_cons, ih hreset]
    cases i with
    | reset => exact absurd rfl hireset
    | ticks raw => rfl
    | _ => exact filterRegisters_sampleRun_congr _ rfl

/-- Settles O43: TICKS moves the filter by its levels, and no other operation of such a run touches it. -/
theorem filterSeesOnlySamples : Obligations.FilterSeesOnlySamples := by
  intro ws s h
  refine ⟨_, runInputs_eq_events ws s, ?_⟩
  have hfilter := filterRegisters_foldl_execState (forall_ne_of_carries h) s
  rw [filterMap_rawOf_runEventsOf] at hfilter
  exact (filterRegisters_eq_iff _ _).mp hfilter

theorem allReleased_getLsbD : ∀ i < 4, Config.allReleased.getLsbD i = true := by decide

/-- Settles O48: after reset the button is released in STABLE, CUR and PREV with count 0, the second pressed sample
commits, and the POLL finds CUR released and STABLE pressed. -/
theorem buttonHeldThroughResetIsAPress : Obligations.ButtonHeldThroughResetIsAPress := by
  intro a b s i hi ha hb
  have hreleased : Config.allReleased.getLsbD i = true := allReleased_getLsbD i hi
  have hcount : laneCount s.resetRegisters.cnt0 s.resetRegisters.cnt1 i = 0 := by simp [laneCount]
  have hpressed {raw : Buttons} (hraw : raw.getLsbD i = false) :
      raw.getLsbD i ≠ s.resetRegisters.stable.getLsbD i := by
    rw [hraw, State.resetRegisters_stable, hreleased]
    exact Bool.false_ne_true
  obtain ⟨hcommit, _⟩ := sampleRun_two hi hcount (hpressed ha) (hpressed hb)
  have hstable : (sampleRun [a, b] s.resetRegisters).stable.getLsbD i = false := hcommit.trans hb
  refine ⟨_, _, runInputs_encode [.reset, .ticks a, .ticks b] s, hstable, ?_,
    runInputs_encode [.reset, .ticks a, .ticks b, .poll] s, ?_, ?_⟩
  · refine Bool.eq_false_of_not_eq_true fun hpress => ?_
    exact Bool.false_ne_true (((outputs_press_getLsbD_iff _ hi).mp hpress).1.symm.trans hreleased)
  · exact (outputs_press_getLsbD_iff _ hi).mpr ⟨hstable, hreleased⟩
  · refine Bool.eq_false_of_not_eq_true fun hrelease => ?_
    exact Bool.false_ne_true (hstable.symm.trans ((outputs_release_getLsbD_iff _ hi).mp hrelease).1)

end Sys2Proof.Machine
end

section
/-! PROOFS. The edges over runs (spec/43_snapshot_edge.md R107, R108): POLL and RESET alone write the snapshots, so the
edges stay until the next POLL, which compares STABLE with what the POLL before it took. -/

namespace Sys2Proof.Machine

/-- A run without POLL and reset leaves the snapshots. -/
theorem runInputs_snapshots {ws : List InputWord}
    (h : ∀ w ∈ ws, carries .reset w = false ∧ carries .poll w = false) (s : State) :
    ∃ t, runInputs ws s = .next t ∧ t.cur = s.cur ∧ t.prev = s.prev := by
  refine runInputs_invariant (P := fun t => t.cur = s.cur ∧ t.prev = s.prev) (fun _ _ _ ht => ht) ?_ ⟨rfl, rfl⟩
  intro w hw i hi t ⟨hcur, hprev⟩
  obtain ⟨hreset, hpoll⟩ := h w hw
  have hwriter : i.mnemonic ∉ ["POLL", "RESET"] := by
    have hne_reset : i ≠ .reset := ne_of_carries_eq_false hreset hi
    have hne_poll : i ≠ .poll := ne_of_carries_eq_false hpoll hi
    cases i with
    | reset => exact absurd rfl hne_reset
    | poll => exact absurd rfl hne_poll
    | _ => simp [Instr.mnemonic]
  exact ⟨(execState_cur_of_not_writer hwriter).trans hcur, (execState_prev_of_not_writer hwriter).trans hprev⟩

/-- The edges are functions of the snapshots. -/
theorem outputs_edges_congr {s t : State} (hcur : t.cur = s.cur) (hprev : t.prev = s.prev) :
    t.outputs.press = s.outputs.press ∧ t.outputs.release = s.outputs.release ∧
      t.outputs.pressAny = s.outputs.pressAny ∧ t.outputs.pressIdx = s.outputs.pressIdx := by
  simp only [State.outputs, hcur, hprev, and_self]

/-- Settles O52: bit by bit, a press is `~CUR & PREV` and a release `CUR & ~PREV`. -/
theorem edgesAreExclusiveAndExact : Obligations.EdgesAreExclusiveAndExact := by
  intro s
  rw [outputs_press_eq, outputs_release_eq]
  constructor
  · refine buttons_ext fun i hi => ?_
    simp only [BitVec.getLsbD_and, BitVec.getLsbD_not, BitVec.getLsbD_zero, hi, decide_true, Bool.true_and]
    cases s.cur.getLsbD i <;> cases s.prev.getLsbD i <;> rfl
  · refine buttons_ext fun i hi => ?_
    simp only [BitVec.getLsbD_or, BitVec.getLsbD_and, BitVec.getLsbD_not, BitVec.getLsbD_xor, hi, decide_true,
      Bool.true_and]
    cases s.cur.getLsbD i <;> cases s.prev.getLsbD i <;> rfl

/-- Settles O53: the snapshots stay over the run, and with them the edges. -/
theorem edgesStayUntilTheNextPoll : Obligations.EdgesStayUntilTheNextPoll := by
  intro ws s h
  obtain ⟨t, hrun, hcur, hprev⟩ := runInputs_snapshots h s
  exact ⟨t, hrun, outputs_edges_congr hcur hprev⟩

/-- Settles O54: CUR keeps the first POLL's STABLE over the run, and the second POLL moves it to PREV. -/
theorem edgesCompareTheLastTwoPolls : Obligations.EdgesCompareTheLastTwoPolls := by
  intro ws s i hi h
  obtain ⟨t, hrun, hcur, _⟩ := runInputs_snapshots h (cycleState (encode .poll) s)
  have hfirst : t.cur = s.stable := by
    rw [hcur, cycleState_encode]
    rfl
  refine ⟨t, execState .poll t, (runInputs_cons _ _ s).trans hrun, exec_eq_next .poll t, ?_⟩
  rw [outputs_press_getLsbD_iff _ hi, outputs_release_getLsbD_iff _ hi, ← hfirst]
  exact ⟨And.comm, And.comm⟩

end Sys2Proof.Machine
end

section
/-! PROOFS. What the outputs show at reset, and what they never show: PSEED while no seed is pending
(spec/70_reset_and_hazards.md section 1; spec/10_state.md R24). -/

namespace Sys2Proof.Machine

/-- Settles O18: the reset values of R26 and the outputs, evaluated; `INIT_SEED` stands for itself. -/
theorem resetStateAndOutputs : Obligations.ResetStateAndOutputs := ⟨rfl, initSeed_ne_zero, rfl⟩

/-- Two states that differ in PSEED at most, and in it only while no seed is pending. -/
def DifferInHiddenPseed (s u : State) : Prop :=
  u = { s with pseed := u.pseed } ∧ (s.seedp = false ∨ u.pseed = s.pseed)

namespace DifferInHiddenPseed

variable {s u : State}

theorem outputs_eq (h : DifferInHiddenPseed s u) : u.outputs = s.outputs :=
  (congrArg State.outputs h.1).trans rfl

theorem inputWord_eq (h : DifferInHiddenPseed s u) : u.inputWord = s.inputWord :=
  (congrArg State.inputWord h.1).trans rfl

theorem cmdIllegal_eq (h : DifferInHiddenPseed s u) : u.cmdIllegal = s.cmdIllegal :=
  cmdIllegal_eq_of_inputWord_eq h.inputWord_eq

/-- SAP alone reads PSEED, and where a seed is pending the two states are equal; SRQ makes them equal. -/
theorem execState (h : DifferInHiddenPseed s u) (i : Instr) :
    DifferInHiddenPseed (execState i s) (execState i u) := by
  obtain ⟨heq, hidle | hpseed⟩ := h
  · generalize u.pseed = v at heq
    subst heq
    cases i with
    | srq => exact ⟨rfl, .inr rfl⟩
    | sap => exact ⟨by simp [Machine.execState, hidle], .inl rfl⟩
    | reset => exact ⟨rfl, .inl rfl⟩
    | _ => exact ⟨rfl, .inl hidle⟩
  · obtain rfl : u = s := by rw [heq, hpseed]
    exact ⟨rfl, .inr rfl⟩

theorem foldl_execState (h : DifferInHiddenPseed s u) (is : List Instr) :
    DifferInHiddenPseed (is.foldl (fun t i => Machine.execState i t) s)
      (is.foldl (fun t i => Machine.execState i t) u) := by
  induction is generalizing s u with
  | nil => exact h
  | cons i is ih => exact ih (h.execState i)

theorem stepState (h : DifferInHiddenPseed s u) : DifferInHiddenPseed (stepState s) (stepState u) := by
  have hnext : DifferInHiddenPseed s.nextCycle u.nextCycle := ⟨congrArg State.nextCycle h.1, h.2⟩
  rw [Machine.stepState, Machine.stepState, h.inputWord_eq]
  exact hnext.foldl_execState _

theorem run (h : DifferInHiddenPseed s u) (n : Nat) :
    ∃ t v : State, Host.Core.run Sys2Proof.core n s = .next t ∧ Host.Core.run Sys2Proof.core n u = .next v ∧
      DifferInHiddenPseed t v := by
  induction n generalizing s u with
  | zero => exact ⟨s, u, rfl, rfl, h⟩
  | succ n ih =>
    rw [core_run_succ (step_eq_next s), core_run_succ (step_eq_next u)]
    exact ih h.stepState

end DifferInHiddenPseed

/-- Settles O57: the two runs differ in PSEED at most at every edge, and outputs and input word do not show it. -/
theorem pseedIsHiddenWhileNotPending : Obligations.PseedIsHiddenWhileNotPending := by
  intro n s t v hidle hrun
  have hstart : DifferInHiddenPseed s { s with pseed := v } := ⟨rfl, .inl hidle⟩
  obtain ⟨t', u, hrun', hrunu, hdiffer⟩ := hstart.run n
  obtain rfl : t = t' := Host.Outcome.next.inj (hrun.symm.trans hrun')
  exact ⟨u, hrunu, hdiffer.outputs_eq, hdiffer.cmdIllegal_eq⟩

end Sys2Proof.Machine
end
